-- ==== Sys2Proof/Word.lean ====
section
/-! DEFINITION. The two fixed-width types of the hardware (spec/00_scope.md R6). -/

namespace Sys2Proof

/-- A byte: 8 bits, unsigned; bit 7 is the most significant (R6). -/
abbrev Byte := BitVec 8

/-- A word, CD's `u32`: 32 bits, unsigned; bit 31 is the most significant (R6). -/
abbrev Word := BitVec 32

end Sys2Proof
end

