-- ==== Sys2Proof/Config.lean ====
section
/-! DEFINITION. What an implementation fixes (the parameters spec/00_scope.md R5 marks OPEN) and the free values (spec/93_implementation_defined.md U3; spec/91_not_in_source.md N9). -/

namespace Sys2Proof

/-- How far `BUF_MAX` lies above its least value 4112 (R5, D12). An uninterpreted constant: nothing can
evaluate it, so a theorem holds for every capacity from 4112 to 2^32 + 15. Log entry 3. -/
opaque Config.bufSlack : Fin 4294963200

/-- `BUF_MAX`, the most bytes `IN` or `OUT` holds: OPEN, at least 4112 and at most 2^32 + 15 (R5, D12). -/
def Config.bufMax : Nat := 4112 + Config.bufSlack.val

/-- Whether `n` bytes fit a buffer: `n ≤ BUF_MAX`. The first test decides every length up to 4112, which
fits whatever `BUF_MAX` is, so that small cases evaluate (`Config.fits_iff` says the two agree). -/
def Config.fits (n : Nat) : Bool := Nat.ble n 4112 || Nat.ble n Config.bufMax

/-- `INFO_RESPONSE_TYPE_ID`, the `type_id` of a response message: OPEN; no rule reads it (R5, D20, N5). -/
opaque Config.infoResponseTypeId : Word

/-- FREE VALUE. What a 32-bit result register holds after the `n`-th reset the host makes during a run
(R22 "unspecified", U3 "any value"); `k` is the register's index in `State.afterReset`. Log entry 2. -/
opaque Config.resetWord : (n k : Nat) → Word

/-- FREE VALUE. What byte `k` of the text registers `VERSION`, `NAME`, `GIT_SHA` (in that order) holds
after the `n`-th reset the host makes during a run (R22, U3). Log entry 2. -/
opaque Config.resetByte : (n k : Nat) → Byte

/-- FREE VALUE. What the pure functions put in a 32-bit length field for a length `n` of 2^32 or more, for
which the spec gives no value (R100, R120, N9). DESIGN CHOICE, safe, log entry 15; no step reaches it. -/
opaque Config.oversizeLength : (n : Nat) → Word

end Sys2Proof
end

