-- ==== Sys2Proof/Machine/HostPort.lean ====
section
/-! DEFINITION. What passes between the host and the engine: the host's actions, what a read returns, the message type names (spec/70_reset_and_hazards.md R186, spec/41_message_codec.md R104). -/

namespace Sys2Proof.Machine

/-- The names `msgtype` gives a `type_id` (R104). -/
inductive MessageType where
  | infoRequest
  | resetRequest
  | headerRequest
  | dataRequest
  /-- Every `type_id` of 4 or more (R60, R104). -/
  | unknown
  deriving DecidableEq, Repr

/-- What the host can read beside `CRC`, which it reads by the operation `CRC.READ` (R24, R186). -/
inductive ReadPort where
  | status
  | typeId
  | length
  | payloadCrc
  | headerCrc
  | version
  | hwRev
  | name
  | id1
  | id2
  | id3
  | gitSha
  /-- The bytes of `IN`. -/
  | inBuf
  /-- `|IN|`. -/
  | inLen
  /-- The bytes of `OUT`. -/
  | outBuf
  /-- `|OUT|`. -/
  | outLen
  deriving DecidableEq, Repr

/-- What the host does to the engine, one action between two operations (R186). -/
inductive HostAction where
  /-- Issue the operation with this 72-bit command word: `sel` in bits 7 to 0, `a` in bits 39 to 8, `b`
  in bits 71 to 40 (R65). -/
  | issue (cmd : BitVec 72)
  /-- Name the message of these bytes by its first 32-bit little-endian word (R70, R104). The engine
  takes no part in it. -/
  | nameMessage (bytes : List Byte)
  /-- `IN <- bytes`. -/
  | loadIn (bytes : List Byte)
  /-- `IN <- OUT`. -/
  | copyOut
  /-- Read a register or a buffer. -/
  | read (p : ReadPort)
  /-- Reset (R180). -/
  | reset
  deriving DecidableEq, Repr

/-- What a read returned to the host. -/
inductive Reply where
  /-- Nothing has been returned yet. -/
  | nothing
  /-- A 32-bit register. -/
  | word (w : Word)
  /-- `STATUS`. -/
  | status (v : BitVec 3)
  /-- A text register or a buffer. -/
  | bytes (b : List Byte)
  /-- `|IN|` or `|OUT|`. -/
  | count (n : Nat)
  /-- The name of a message type. -/
  | messageType (m : MessageType)
  deriving DecidableEq, Repr

end Sys2Proof.Machine
end

