-- ==== Sys2Proof/Machine/Operands.lean ====
section
/-! DEFINITION. Operand forms: the fields of a command word, byte order, sub-sequences of a buffer, groups of input bytes (spec/00_scope.md R6, R7; spec/20_memory.md R38 to R41; spec/30_encoding.md R64, R65). -/

namespace Sys2Proof.Machine

/-- The command word of the triple `(sel, a, b)` (R65). -/
def commandWord (sel : Byte) (a b : Word) : BitVec 72 := b ++ a ++ sel

/-- `sel`, bits 7 to 0 of a command word (R65). -/
def commandSel (cmd : BitVec 72) : Byte := cmd.extractLsb' 0 8

/-- `a`, bits 39 to 8 of a command word (R65). -/
def commandA (cmd : BitVec 72) : Word := cmd.extractLsb' 8 32

/-- `b`, bits 71 to 40 of a command word (R65). -/
def commandB (cmd : BitVec 72) : Word := cmd.extractLsb' 40 32

/-- `s[i:j]`: the bytes `s[i]` to `s[j-1]` (R6); `MemRead(S, off, n)` is `slice S off (off + n)` (R7). -/
def slice (s : List Byte) (i j : Nat) : List Byte := (s.drop i).take (j - i)

/-- `le32(v)`: the four bytes of `v`, least significant first (R7, R40). -/
def le32 (v : Word) : List Byte :=
  [v.extractLsb' 0 8, v.extractLsb' 8 8, v.extractLsb' 16 8, v.extractLsb' 24 8]

/-- `le32dec(s)`, the inverse of `le32` on a 4-byte sequence (R7, R39). The spec defines it on no other
length and no operation applies it to one. -/
def le32dec (s : List Byte) : Word :=
  match s with
  | [b0, b1, b2, b3] =>
    b0.setWidth 32 ||| (b1.setWidth 32 <<< 8) ||| (b2.setWidth 32 <<< 16) ||| (b3.setWidth 32 <<< 24)
  | _ => 0#32

/-- The value of a 32-bit length field (R56, R61, R100): the length, up to 2^32 - 1. The spec gives a greater
length no value and says not to assume that it wraps (R6, N9), so a free value stands there: DESIGN CHOICE,
safe, log entry 15. No step applies it to such a length (R109). -/
def lengthField (n : Nat) : Word :=
  if n ≤ 4294967295 then BitVec.ofNat 32 n else Config.oversizeLength n

/-- `be32dec` of four bytes: the first is the most significant (R7, R41). -/
def be32dec (b0 b1 b2 b3 : Byte) : Word :=
  (b0.setWidth 32 <<< 24) ||| (b1.setWidth 32 <<< 16) ||| (b2.setWidth 32 <<< 8) ||| b3.setWidth 32

/-- A group: 1 to 4 consecutive input bytes (R8, R82). -/
inductive Group where
  | one (b0 : Byte)
  | two (b0 b1 : Byte)
  | three (b0 b1 b2 : Byte)
  | four (b0 b1 b2 b3 : Byte)
  deriving DecidableEq, Repr

/-- `pack_group`: most significant byte first, the missing low-order bytes zero (R82, R64). -/
def packGroup (g : Group) : Word :=
  match g with
  | .one b0 => be32dec b0 0#8 0#8 0#8
  | .two b0 b1 => be32dec b0 b1 0#8 0#8
  | .three b0 b1 b2 => be32dec b0 b1 b2 0#8
  | .four b0 b1 b2 b3 => be32dec b0 b1 b2 b3

/-- The bytes of a group, in order. -/
def Group.bytes (g : Group) : List Byte :=
  match g with
  | .one b0 => [b0]
  | .two b0 b1 => [b0, b1]
  | .three b0 b1 b2 => [b0, b1, b2]
  | .four b0 b1 b2 b3 => [b0, b1, b2, b3]

/-- The groups of a byte sequence, in order: full groups of 4, then the short last one if bytes are left
(R83). -/
def groups (b : List Byte) : List Group :=
  match b with
  | [] => []
  | [b0] => [.one b0]
  | [b0, b1] => [.two b0 b1]
  | [b0, b1, b2] => [.three b0 b1 b2]
  | b0 :: b1 :: b2 :: b3 :: rest => .four b0 b1 b2 b3 :: groups rest

/-- `msgtype(t)` (R104): the name of a `type_id`; a pure function for the host's use. -/
def msgtype (t : Word) : MessageType :=
  match t.toNat with
  | 0 => .infoRequest
  | 1 => .resetRequest
  | 2 => .headerRequest
  | 3 => .dataRequest
  | _ => .unknown

end Sys2Proof.Machine
end

