-- ==== Sys2Proof/Syntax.lean ====
section
/-! DEFINITION. The instructions: one constructor per row of spec/opcode_table.json (spec/30_encoding.md R66, R59, R70). -/

namespace Sys2Proof

/-- The eight operations of the engine (format `CMD`, R66), each with the operands it uses, and the four
message type names (format `MSG`, R59, R70). An operand an operation does not use is no part of it (R65). -/
inductive Instr where
  /-- `CRC.INIT` (R84). -/
  | crcInit
  /-- `CRC.WORD w`: `w` in format `CRCWORD`, the first byte of the group in bits 31 to 24 (R64, R85). -/
  | crcWord (w : Word)
  /-- `CRC.SUM`: the byte sequence is `IN` (R86). -/
  | crcSum
  /-- `CRC.READ` (R87). -/
  | crcRead
  /-- `MSG.ENCODE t`: `t` the `type_id`; the payload is `IN` (R101). -/
  | msgEncode (t : Word)
  /-- `MSG.DECODE`: the received bytes are `IN` (R103). -/
  | msgDecode
  /-- `HDRREQ.PACK n, c`: `n` the `total_length`, `c` the `total_crc` (R121). -/
  | hdrreqPack (n c : Word)
  /-- `INFO.PARSE`: the payload is `IN` (R124). -/
  | infoParse
  /-- The message type name `InfoRequest`, `type_id` 0 (R59). -/
  | infoRequest
  /-- The message type name `ResetRequest`, `type_id` 1 (R59). -/
  | resetRequest
  /-- The message type name `HeaderRequest`, `type_id` 2 (R59). -/
  | headerRequest
  /-- The message type name `DataRequest`, `type_id` 3 (R59). -/
  | dataRequest
  deriving DecidableEq, Repr

end Sys2Proof
end

