-- ==== Sys2Proof/Decode.lean ====
section
/-! DEFINITION. The decoder of command words and of message type words, the encoder, and the host's numbering of both (spec/30_encoding.md R65 to R67, R59, R70). -/

namespace Sys2Proof

open Sys2Proof.Machine

/-- What is given to the decoder: a 72-bit command word (format `CMD`) or the bytes of a message (format
`MSG`). The host hands the two over by different actions, so neither is ever taken for the other. -/
inductive Fetched where
  | command (cmd : BitVec 72)
  | message (bytes : List Byte)
  deriving DecidableEq, Repr

/-- Why the decoder gives no instruction. -/
inductive DecodeError where
  /-- A selector from `0x08` to `0xFF` selects no operation (R67). -/
  | reservedSelector (sel : Byte)
  /-- A `type_id` of 4 or more has no name (R60). -/
  | unknownType (t : Word)
  /-- Fewer than 4 bytes hold no first word to name a message by (R70). -/
  | shortMessage
  deriving DecidableEq, Repr

/-- The selector table (R66); an operand that an operation does not use is ignored (R65). -/
def decodeCommand (cmd : BitVec 72) : Except DecodeError Instr :=
  match (commandSel cmd).toNat with
  | 0 => .ok .crcInit
  | 1 => .ok (.crcWord (commandA cmd))
  | 2 => .ok .crcSum
  | 3 => .ok .crcRead
  | 4 => .ok (.msgEncode (commandA cmd))
  | 5 => .ok .msgDecode
  | 6 => .ok (.hdrreqPack (commandA cmd) (commandB cmd))
  | 7 => .ok .infoParse
  | _ => .error (.reservedSelector (commandSel cmd))

/-- The `MSG` rows of the opcode table: a message is named by its first 32-bit little-endian word (R59,
R70); the bytes after it are not examined. -/
def decodeMessageName (bytes : List Byte) : Except DecodeError Instr :=
  match bytes with
  | b0 :: b1 :: b2 :: b3 :: _ =>
    match msgtype (le32dec [b0, b1, b2, b3]) with
    | .infoRequest => .ok .infoRequest
    | .resetRequest => .ok .resetRequest
    | .headerRequest => .ok .headerRequest
    | .dataRequest => .ok .dataRequest
    | .unknown => .error (.unknownType (le32dec [b0, b1, b2, b3]))
  | _ => .error .shortMessage

/-- The decoder, total on every command word and every byte sequence. -/
def decode (f : Fetched) : Except DecodeError Instr :=
  match f with
  | .command cmd => decodeCommand cmd
  | .message bytes => decodeMessageName bytes

/-- The encoder: unused operands are 0; a message name is the 4 bytes of its `type_id` (R65, R66, R59). -/
def encode (i : Instr) : Fetched :=
  match i with
  | .crcInit => .command (commandWord 0x00#8 0#32 0#32)
  | .crcWord w => .command (commandWord 0x01#8 w 0#32)
  | .crcSum => .command (commandWord 0x02#8 0#32 0#32)
  | .crcRead => .command (commandWord 0x03#8 0#32 0#32)
  | .msgEncode t => .command (commandWord 0x04#8 t 0#32)
  | .msgDecode => .command (commandWord 0x05#8 0#32 0#32)
  | .hdrreqPack n c => .command (commandWord 0x06#8 n c)
  | .infoParse => .command (commandWord 0x07#8 0#32 0#32)
  | .infoRequest => .message (le32 0#32)
  | .resetRequest => .message (le32 1#32)
  | .headerRequest => .message (le32 2#32)
  | .dataRequest => .message (le32 3#32)

/-- An instruction of the opcode table whose bits are `w`: 72 bits are a command word; 32 bits are the
first word of a message, laid out little-endian and followed by a preamble's other 12 bytes, all zero
(R56, R70). The table has no other width. -/
def fetchedOfTable (nbits w : Nat) : Option Fetched :=
  if nbits == 72 then some (.command (BitVec.ofNat 72 w))
  else if nbits == 32 then some (.message (le32 (BitVec.ofNat 32 w) ++ List.replicate 12 0#8))
  else none

/-- The instruction the decoder reads from the table's bits. -/
def decodeTableWord (nbits w : Nat) : Option Instr :=
  match fetchedOfTable nbits w with
  | none => none
  | some f =>
    match decode f with
    | .ok i => some i
    | .error _ => none

end Sys2Proof
end

