-- ==== Sys2Proof/Machine/Table.lean ====
section
/-! DEFINITION. The lookup table `T`, a constant and no part of the state (spec/10_state.md R20; spec/11_crc_table.md R30, R31). -/

namespace Sys2Proof.Machine

/-- `POLY`, the generator polynomial, the x^32 term implied (R5). -/
def crcPoly : Word := 0x04C11DB7#32

/-- One round of the loop that computes an entry (R30): shift left by one, the polynomial added when bit
31 was set. -/
def tableRound (c : Word) : Word :=
  if c.msb then (c <<< 1) ^^^ crcPoly else c <<< 1

/-- `T[i]` (R30): the byte in the top byte of a word, then eight rounds. -/
def tableEntry (i : Byte) : Word :=
  tableRound (tableRound (tableRound (tableRound
    (tableRound (tableRound (tableRound (tableRound (i.setWidth 32 <<< 24))))))))

/-- Entries 0x00 to 0x3F as the spec lists them (R31). -/
def listedTable0 : List Word :=
  [0x00000000#32, 0x04C11DB7#32, 0x09823B6E#32, 0x0D4326D9#32,
   0x130476DC#32, 0x17C56B6B#32, 0x1A864DB2#32, 0x1E475005#32,
   0x2608EDB8#32, 0x22C9F00F#32, 0x2F8AD6D6#32, 0x2B4BCB61#32,
   0x350C9B64#32, 0x31CD86D3#32, 0x3C8EA00A#32, 0x384FBDBD#32,
   0x4C11DB70#32, 0x48D0C6C7#32, 0x4593E01E#32, 0x4152FDA9#32,
   0x5F15ADAC#32, 0x5BD4B01B#32, 0x569796C2#32, 0x52568B75#32,
   0x6A1936C8#32, 0x6ED82B7F#32, 0x639B0DA6#32, 0x675A1011#32,
   0x791D4014#32, 0x7DDC5DA3#32, 0x709F7B7A#32, 0x745E66CD#32,
   0x9823B6E0#32, 0x9CE2AB57#32, 0x91A18D8E#32, 0x95609039#32,
   0x8B27C03C#32, 0x8FE6DD8B#32, 0x82A5FB52#32, 0x8664E6E5#32,
   0xBE2B5B58#32, 0xBAEA46EF#32, 0xB7A96036#32, 0xB3687D81#32,
   0xAD2F2D84#32, 0xA9EE3033#32, 0xA4AD16EA#32, 0xA06C0B5D#32,
   0xD4326D90#32, 0xD0F37027#32, 0xDDB056FE#32, 0xD9714B49#32,
   0xC7361B4C#32, 0xC3F706FB#32, 0xCEB42022#32, 0xCA753D95#32,
   0xF23A8028#32, 0xF6FB9D9F#32, 0xFBB8BB46#32, 0xFF79A6F1#32,
   0xE13EF6F4#32, 0xE5FFEB43#32, 0xE8BCCD9A#32, 0xEC7DD02D#32]

/-- Entries 0x40 to 0x7F as the spec lists them (R31). -/
def listedTable1 : List Word :=
  [0x34867077#32, 0x30476DC0#32, 0x3D044B19#32, 0x39C556AE#32,
   0x278206AB#32, 0x23431B1C#32, 0x2E003DC5#32, 0x2AC12072#32,
   0x128E9DCF#32, 0x164F8078#32, 0x1B0CA6A1#32, 0x1FCDBB16#32,
   0x018AEB13#32, 0x054BF6A4#32, 0x0808D07D#32, 0x0CC9CDCA#32,
   0x7897AB07#32, 0x7C56B6B0#32, 0x71159069#32, 0x75D48DDE#32,
   0x6B93DDDB#32, 0x6F52C06C#32, 0x6211E6B5#32, 0x66D0FB02#32,
   0x5E9F46BF#32, 0x5A5E5B08#32, 0x571D7DD1#32, 0x53DC6066#32,
   0x4D9B3063#32, 0x495A2DD4#32, 0x44190B0D#32, 0x40D816BA#32,
   0xACA5C697#32, 0xA864DB20#32, 0xA527FDF9#32, 0xA1E6E04E#32,
   0xBFA1B04B#32, 0xBB60ADFC#32, 0xB6238B25#32, 0xB2E29692#32,
   0x8AAD2B2F#32, 0x8E6C3698#32, 0x832F1041#32, 0x87EE0DF6#32,
   0x99A95DF3#32, 0x9D684044#32, 0x902B669D#32, 0x94EA7B2A#32,
   0xE0B41DE7#32, 0xE4750050#32, 0xE9362689#32, 0xEDF73B3E#32,
   0xF3B06B3B#32, 0xF771768C#32, 0xFA325055#32, 0xFEF34DE2#32,
   0xC6BCF05F#32, 0xC27DEDE8#32, 0xCF3ECB31#32, 0xCBFFD686#32,
   0xD5B88683#32, 0xD1799B34#32, 0xDC3ABDED#32, 0xD8FBA05A#32]

/-- Entries 0x80 to 0xBF as the spec lists them (R31). -/
def listedTable2 : List Word :=
  [0x690CE0EE#32, 0x6DCDFD59#32, 0x608EDB80#32, 0x644FC637#32,
   0x7A089632#32, 0x7EC98B85#32, 0x738AAD5C#32, 0x774BB0EB#32,
   0x4F040D56#32, 0x4BC510E1#32, 0x46863638#32, 0x42472B8F#32,
   0x5C007B8A#32, 0x58C1663D#32, 0x558240E4#32, 0x51435D53#32,
   0x251D3B9E#32, 0x21DC2629#32, 0x2C9F00F0#32, 0x285E1D47#32,
   0x36194D42#32, 0x32D850F5#32, 0x3F9B762C#32, 0x3B5A6B9B#32,
   0x0315D626#32, 0x07D4CB91#32, 0x0A97ED48#32, 0x0E56F0FF#32,
   0x1011A0FA#32, 0x14D0BD4D#32, 0x19939B94#32, 0x1D528623#32,
   0xF12F560E#32, 0xF5EE4BB9#32, 0xF8AD6D60#32, 0xFC6C70D7#32,
   0xE22B20D2#32, 0xE6EA3D65#32, 0xEBA91BBC#32, 0xEF68060B#32,
   0xD727BBB6#32, 0xD3E6A601#32, 0xDEA580D8#32, 0xDA649D6F#32,
   0xC423CD6A#32, 0xC0E2D0DD#32, 0xCDA1F604#32, 0xC960EBB3#32,
   0xBD3E8D7E#32, 0xB9FF90C9#32, 0xB4BCB610#32, 0xB07DABA7#32,
   0xAE3AFBA2#32, 0xAAFBE615#32, 0xA7B8C0CC#32, 0xA379DD7B#32,
   0x9B3660C6#32, 0x9FF77D71#32, 0x92B45BA8#32, 0x9675461F#32,
   0x8832161A#32, 0x8CF30BAD#32, 0x81B02D74#32, 0x857130C3#32]

/-- Entries 0xC0 to 0xFF as the spec lists them (R31). -/
def listedTable3 : List Word :=
  [0x5D8A9099#32, 0x594B8D2E#32, 0x5408ABF7#32, 0x50C9B640#32,
   0x4E8EE645#32, 0x4A4FFBF2#32, 0x470CDD2B#32, 0x43CDC09C#32,
   0x7B827D21#32, 0x7F436096#32, 0x7200464F#32, 0x76C15BF8#32,
   0x68860BFD#32, 0x6C47164A#32, 0x61043093#32, 0x65C52D24#32,
   0x119B4BE9#32, 0x155A565E#32, 0x18197087#32, 0x1CD86D30#32,
   0x029F3D35#32, 0x065E2082#32, 0x0B1D065B#32, 0x0FDC1BEC#32,
   0x3793A651#32, 0x3352BBE6#32, 0x3E119D3F#32, 0x3AD08088#32,
   0x2497D08D#32, 0x2056CD3A#32, 0x2D15EBE3#32, 0x29D4F654#32,
   0xC5A92679#32, 0xC1683BCE#32, 0xCC2B1D17#32, 0xC8EA00A0#32,
   0xD6AD50A5#32, 0xD26C4D12#32, 0xDF2F6BCB#32, 0xDBEE767C#32,
   0xE3A1CBC1#32, 0xE760D676#32, 0xEA23F0AF#32, 0xEEE2ED18#32,
   0xF0A5BD1D#32, 0xF464A0AA#32, 0xF9278673#32, 0xFDE69BC4#32,
   0x89B8FD09#32, 0x8D79E0BE#32, 0x803AC667#32, 0x84FBDBD0#32,
   0x9ABC8BD5#32, 0x9E7D9662#32, 0x933EB0BB#32, 0x97FFAD0C#32,
   0xAFB010B1#32, 0xAB710D06#32, 0xA6322BDF#32, 0xA2F33668#32,
   0xBCB4666D#32, 0xB8757BDA#32, 0xB5365D03#32, 0xB1F740B4#32]

/-- The 256 entries as the spec lists them (R31). No operation reads this list: it is there to be compared
with `tableEntry`, which computes them. -/
def listedTable : List Word := listedTable0 ++ listedTable1 ++ listedTable2 ++ listedTable3

end Sys2Proof.Machine
end

