-- ==== Sys2Proof/Machine/Checksum.lean ====
section
/-! DEFINITION. The checksum as a pure function, and the equivalent forms the spec gives for it (spec/40_crc_engine.md R80 to R83, R90). -/

namespace Sys2Proof.Machine

/-- `INIT`, the initial value of the running register (R5, R83). -/
def crcInitial : Word := 0xFFFFFFFF#32

/-- `fold_byte(reg, b)`, the folding step (R80). -/
def foldByte (reg : Word) (b : Byte) : Word :=
  (reg <<< 8) ^^^ tableEntry ((reg >>> 24).setWidth 8 ^^^ b)

/-- `fold_word(reg, w)`: the four bytes of `w`, the most significant first (R81). -/
def foldWord (reg w : Word) : Word :=
  foldByte (foldByte (foldByte (foldByte reg (w.extractLsb' 24 8)) (w.extractLsb' 16 8))
    (w.extractLsb' 8 8)) (w.extractLsb' 0 8)

/-- The running register after the groups are folded in, one packed word each (R83). -/
def foldGroups (reg : Word) (gs : List Group) : Word :=
  gs.foldl (fun r g => foldWord r (packGroup g)) reg

/-- `checksum(b)` (R83): no final inversion. -/
def checksum (b : List Byte) : Word := foldGroups crcInitial (groups b)

/-- `pad4(b)`: zero bytes added up to a multiple of 4 (R90). -/
def pad4 (b : List Byte) : List Byte := b ++ List.replicate ((4 - b.length % 4) % 4) 0#8

/-- The byte-wise form (R90 b, and V13 without padding). -/
def foldBytes (reg : Word) (b : List Byte) : Word := b.foldl foldByte reg

/-- One bit of the bit-serial form (R90 c): `y` the input bit. -/
def bitStep (reg : Word) (y : Bool) : Word :=
  if xor reg.msb y then (reg <<< 1) ^^^ crcPoly else reg <<< 1

/-- The bits of a byte in the order they are taken: bit 7 first (R90 c). -/
def byteBits (b : Byte) : List Bool :=
  [b.getLsbD 7, b.getLsbD 6, b.getLsbD 5, b.getLsbD 4, b.getLsbD 3, b.getLsbD 2, b.getLsbD 1, b.getLsbD 0]

/-- The bit-serial form over a byte sequence from a register value; it does not use the table (R90 c). -/
def bitSerial (reg : Word) (b : List Byte) : Word :=
  b.foldl (fun r y => (byteBits y).foldl bitStep r) reg

end Sys2Proof.Machine
end

