-- ==== Sys2Proof/Machine/State.lean ====
section
/-! DEFINITION. The machine's state, its stops, and the state after reset (spec/10_state.md R10 to R24). -/

namespace Sys2Proof.Machine

/-- The four message field registers: the preamble of the last message that `MSG.ENCODE` built or
`MSG.DECODE` accepted (R12). -/
structure MsgRegs where
  typeId : Word
  length : Word
  payloadCrc : Word
  headerCrc : Word
  deriving DecidableEq, Repr

/-- The DeviceInfo record registers: the fields of the last payload that `INFO.PARSE` accepted (R16). The
text registers are raw bytes, 32, 16 and 14 of them (`State.Inv` says so and every step keeps it). -/
structure DeviceInfo where
  version : List Byte
  hwRev : Word
  name : List Byte
  id1 : Word
  id2 : Word
  id3 : Word
  gitSha : List Byte
  deriving DecidableEq, Repr

/-- The two address spaces (R35), each a byte sequence: the byte at offset `k` is the list's element `k`,
an offset at or past the length names no byte. Equal contents are equal lists, so the list is itself the
canonical form (log entry 4). -/
structure Memory where
  inBuf : List Byte
  outBuf : List Byte
  deriving DecidableEq, Repr

/-- The state: the engine's architectural state (R10) and, after it, the host's side of the interface,
which is the model's own (log entries 2, 5, 6). -/
structure State where
  /-- `CRC`, the running register (R11). -/
  crc : Word
  /-- `STATUS`, the outcome of the last operation (R13). -/
  status : BitVec 3
  /-- `TYPE_ID`, `LENGTH`, `PAYLOAD_CRC`, `HEADER_CRC` (R12). -/
  msg : MsgRegs
  /-- `VERSION`, `HW_REV`, `NAME`, `ID1`, `ID2`, `ID3`, `GIT_SHA` (R16). -/
  info : DeviceInfo
  /-- `IN` and `OUT` (R14, R15). -/
  mem : Memory
  /-- The model's own: the value the host's last read returned (R87, R186). -/
  reply : Reply
  /-- The model's own: the actions the host has still to make, the next one first (R18, R186). -/
  script : List HostAction
  /-- The model's own: how many resets the host has made, the argument of the free values (R22, U3). -/
  resets : Nat
  deriving DecidableEq, Repr

/-- Why the machine stops with a fault: never. What the spec calls a fault is an operation that ends with
a non-zero `STATUS` (R155, R161), which is a next state; and there is no out-of-range access (R37). -/
inductive Fault where
  deriving DecidableEq, Repr

/-- Why a step has no meaning. Each but the first is one the spec names; every one is safe: the model has
no step where the hardware gives none (R167). -/
inductive Refusal where
  /-- Raised by `exec` for an instruction not modelled yet; no arm answers it. Safe. -/
  | notModelled (mnemonic : String)
  /-- Raised by a command whose selector is `0x08` to `0xFF` (R67, R167 a). Safe. -/
  | reservedSelector (sel : Byte)
  /-- Raised by `MSG.ENCODE` with `|IN| > 2^32 - 1` or `16 + |IN| > BUF_MAX` (R109, R167 b). Safe. -/
  | payloadTooLong
  /-- Raised by a host load of more than `BUF_MAX` bytes into `IN` (R167 c). Safe. -/
  | loadTooLong
  /-- Raised when the host names a message of fewer than 4 bytes, which has no first word (R70). Safe. -/
  | shortMessage
  deriving DecidableEq, Repr

/-- The state after a reset that leaves `m` and `d` in the registers R22 leaves unspecified (R22, R180):
`CRC` at its initial value, `STATUS` 0, both buffers empty. The host's side is not the engine's to reset. -/
def State.afterReset (m : MsgRegs) (d : DeviceInfo) (reply : Reply) (script : List HostAction)
    (resets : Nat) : State :=
  { crc := 0xFFFFFFFF#32, status := 0#3, msg := m, info := d, mem := ⟨[], []⟩,
    reply := reply, script := script, resets := resets }

/-- The machine right after reset (R22, R180), nothing read and nothing for the host to do. The registers
R22 leaves unspecified hold zero: DESIGN CHOICE, unsafe, log entry 1; no statement rests on it. -/
def State.reset : State :=
  State.afterReset ⟨0#32, 0#32, 0#32, 0#32⟩
    ⟨List.replicate 32 0#8, 0#32, List.replicate 16 0#8, 0#32, 0#32, 0#32, List.replicate 14 0#8⟩
    .nothing [] 0

end Sys2Proof.Machine
end

