-- ==== Sys2Proof/Machine/Flags.lean ====
section
/-! DEFINITION. The outcome codes of `STATUS`, the only flag-like state (spec/10_state.md R13, R19; spec/60_exceptions.md R155, R159). -/

namespace Sys2Proof.Machine

/-- Every name CD gives an outcome, in the order whose position is its code (R155). The engine uses `ok`,
`corruptMessage`, `truncatedMessage` and `malformedPayload`; the other four are kept for the software
around it (R159). -/
inductive OutcomeName where
  | ok
  | invalidImage
  | corruptMessage
  | truncatedMessage
  | malformedPayload
  | timeout
  | transportFault
  | abortedTransfer
  deriving DecidableEq, Repr

/-- The code of an outcome in `STATUS` (R155, R159). -/
def statusCode (o : OutcomeName) : BitVec 3 :=
  match o with
  | .ok => 0#3
  | .invalidImage => 1#3
  | .corruptMessage => 2#3
  | .truncatedMessage => 3#3
  | .malformedPayload => 4#3
  | .timeout => 5#3
  | .transportFault => 6#3
  | .abortedTransfer => 7#3

/-- The faults the engine raises (R155). -/
inductive EngineFault where
  /-- A checksum mismatch in `MSG.DECODE` (R157). -/
  | corruptMessage
  /-- Too few bytes in `MSG.DECODE` (R156). -/
  | truncatedMessage
  /-- A payload that is not 78 bytes long in `INFO.PARSE` (R158). -/
  | malformedPayload
  deriving DecidableEq, Repr

/-- The code `raise Fault(code)` writes (R155, R161). -/
def faultCode (f : EngineFault) : BitVec 3 :=
  match f with
  | .corruptMessage => statusCode .corruptMessage
  | .truncatedMessage => statusCode .truncatedMessage
  | .malformedPayload => statusCode .malformedPayload

end Sys2Proof.Machine
end

