-- ==== Sys2Proof/Machine/Ops.lean ====
section
/-! DEFINITION. The named operations over the registers and the buffers; ending an operation, raising a fault, reset, and the host's loads and reads (spec/10_state.md, spec/20_memory.md, spec/60_exceptions.md R161, spec/70_reset_and_hazards.md R180, R186). -/

namespace Sys2Proof.Machine

/-- The two address spaces (R35). -/
inductive Space where
  | input
  | output
  deriving DecidableEq, Repr

/-- The byte sequence of a space. -/
def Memory.bytes (m : Memory) (sp : Space) : List Byte :=
  match sp with
  | .input => m.inBuf
  | .output => m.outBuf

/-- The byte at an offset; an offset at or past the length names no byte (R35). -/
def Memory.readByte (m : Memory) (sp : Space) (off : Nat) : Option Byte := (m.bytes sp)[off]?

/-- A space as (address, byte) pairs, addresses strictly rising (`Memory.cells_rising`). -/
def Memory.cells (m : Memory) (sp : Space) : List Host.Cell :=
  (m.bytes sp).zipIdx.map fun p => (p.2, p.1)

/-- Both buffers hold at most `BUF_MAX` bytes (R14, R15). -/
def Memory.wf (m : Memory) : Bool := Config.fits m.inBuf.length && Config.fits m.outBuf.length

/-- `CRC <- v`. -/
def State.setCrc (v : Word) (s : State) : State := { s with crc := v }

/-- `STATUS <- v`. -/
def State.setStatus (v : BitVec 3) (s : State) : State := { s with status := v }

/-- The four message field registers, all together (R12). -/
def State.setMsg (m : MsgRegs) (s : State) : State := { s with msg := m }

/-- The DeviceInfo registers, all together (R16). -/
def State.setInfo (d : DeviceInfo) (s : State) : State := { s with info := d }

/-- `IN <- bytes`: content and length replaced (R186). -/
def State.setIn (bytes : List Byte) (s : State) : State := { s with mem := { s.mem with inBuf := bytes } }

/-- `OUT <- bytes`: content and length replaced (R7). -/
def State.setOut (bytes : List Byte) (s : State) : State := { s with mem := { s.mem with outBuf := bytes } }

/-- A value is returned to the host; no register or buffer changes (R24, R87). -/
def State.setReply (r : Reply) (s : State) : State := { s with reply := r }

/-- The actions the host has still to make. -/
def State.setScript (acts : List HostAction) (s : State) : State := { s with script := acts }

/-- The end of an operation that completes: `STATUS <- 0` (R13). -/
def State.complete (s : State) : State := s.setStatus (statusCode .ok)

/-- `raise Fault(code)` (R161): `STATUS` gets the code; the two faults of `MSG.DECODE` also empty `OUT`;
nothing else changes. There is no handler, no saved state and no return: the next operation is accepted
at once, whatever `STATUS` holds (R162). -/
def State.raiseFault (f : EngineFault) (s : State) : State :=
  match f with
  | .corruptMessage => (s.setStatus (faultCode .corruptMessage)).setOut []
  | .truncatedMessage => (s.setStatus (faultCode .truncatedMessage)).setOut []
  | .malformedPayload => s.setStatus (faultCode .malformedPayload)

/-- What the message registers hold after the `n`-th reset of a run: unspecified, so free (R22, U3). -/
def unspecifiedMsg (n : Nat) : MsgRegs :=
  ⟨Config.resetWord n 0, Config.resetWord n 1, Config.resetWord n 2, Config.resetWord n 3⟩

/-- What the DeviceInfo registers hold after the `n`-th reset of a run: unspecified, so free (R22, U3). -/
def unspecifiedInfo (n : Nat) : DeviceInfo :=
  ⟨(List.range 32).map (Config.resetByte n), Config.resetWord n 4,
    (List.range 16).map (fun k => Config.resetByte n (32 + k)), Config.resetWord n 5,
    Config.resetWord n 6, Config.resetWord n 7,
    (List.range 14).map (fun k => Config.resetByte n (48 + k))⟩

/-- The host resets the engine (R180). What the host has read and has still to do is the host's. -/
def State.hostReset (s : State) : State :=
  State.afterReset (unspecifiedMsg s.resets) (unspecifiedInfo s.resets) s.reply s.script (s.resets + 1)

/-- The host loads `IN` (R186); more than `BUF_MAX` bytes are refused (R167 c). -/
def loadInput (bytes : List Byte) (s : State) : Host.Outcome State Fault Refusal :=
  if Config.fits bytes.length then .next (s.setIn bytes) else .refused .loadTooLong

/-- What a host read returns (R24, R186). -/
def readPort (p : ReadPort) (s : State) : Reply :=
  match p with
  | .status => .status s.status
  | .typeId => .word s.msg.typeId
  | .length => .word s.msg.length
  | .payloadCrc => .word s.msg.payloadCrc
  | .headerCrc => .word s.msg.headerCrc
  | .version => .bytes s.info.version
  | .hwRev => .word s.info.hwRev
  | .name => .bytes s.info.name
  | .id1 => .word s.info.id1
  | .id2 => .word s.info.id2
  | .id3 => .word s.info.id3
  | .gitSha => .bytes s.info.gitSha
  | .inBuf => .bytes s.mem.inBuf
  | .inLen => .count s.mem.inBuf.length
  | .outBuf => .bytes s.mem.outBuf
  | .outLen => .count s.mem.outBuf.length

end Sys2Proof.Machine
end

