-- ==== Sys2Proof/Machine/Codec.lean ====
section
/-! DEFINITION. The message codec: `encode` and `decode` as pure functions, then `MSG.ENCODE` and `MSG.DECODE` (spec/41_message_codec.md R100 to R103, R109, R110). -/

namespace Sys2Proof.Machine

/-- The 12 header bytes `type_id ‖ length ‖ payload_crc` (R100). -/
def headerBytes (t l pc : Word) : List Byte := le32 t ++ le32 l ++ le32 pc

/-- The four preamble fields of the message of type `t` and payload `p` (R100), defined by the spec for
`|p| ≤ 2^32 - 1`. Past that `LENGTH` is the free value of `lengthField` (DESIGN CHOICE, log entry 15). -/
def preambleOf (t : Word) (p : List Byte) : MsgRegs :=
  { typeId := t
    length := lengthField p.length
    payloadCrc := checksum p
    headerCrc := checksum (headerBytes t (lengthField p.length) (checksum p)) }

/-- `encode(t, p)` (R100): the 16-byte preamble, then the payload, defined by the spec for `|p| ≤ 2^32 - 1`.
Past that the length bytes are those of the free value of `lengthField` (DESIGN CHOICE, log entry 15), and
`MSG.ENCODE` is refused (R109), so no step gets there. -/
def encodeMessage (t : Word) (p : List Byte) : List Byte :=
  headerBytes t (lengthField p.length) (checksum p) ++ le32 (preambleOf t p).headerCrc ++ p

/-- How `decode` ends (R102, R103): the step that decides it, with the last checksum computed. -/
inductive DecodeResult where
  /-- Step 1: fewer than 16 bytes; no checksum was computed. -/
  | tooShort
  /-- Step 3: the header checksum `sum` is not the transmitted one. -/
  | badHeader (sum : Word)
  /-- Step 4: the header checksum `sum` verified; the declared length is more than there is. -/
  | tooLong (sum : Word)
  /-- Step 6: the payload checksum `sum` is not the transmitted one. -/
  | badPayload (sum : Word)
  /-- Step 7: the message, and `sum`, its payload's checksum. -/
  | accepted (sum : Word) (m : MsgRegs) (p : List Byte)
  deriving DecidableEq, Repr

/-- The preamble fields of a sequence of at least 16 bytes (R102 step 2). -/
def preambleFields (s : List Byte) : MsgRegs :=
  { typeId := le32dec (slice s 0 4)
    length := le32dec (slice s 4 8)
    payloadCrc := le32dec (slice s 8 12)
    headerCrc := le32dec (slice s 12 16) }

/-- The payload the preamble declares (R102 step 5). -/
def payloadSlice (s : List Byte) : List Byte :=
  slice s 16 (16 + (preambleFields s).length.toNat)

/-- The checks of `decode` in the order of R102; the header checksum comes before the declared length
(decision D8, spec/90_conflicts.md C1). Lengths are natural numbers. -/
def decodeSteps (s : List Byte) : DecodeResult :=
  if s.length < 16 then .tooShort
  else if checksum (slice s 0 12) ≠ (preambleFields s).headerCrc then
    .badHeader (checksum (slice s 0 12))
  else if s.length - 16 < (preambleFields s).length.toNat then
    .tooLong (checksum (slice s 0 12))
  else if checksum (payloadSlice s) ≠ (preambleFields s).payloadCrc then
    .badPayload (checksum (payloadSlice s))
  else .accepted (checksum (payloadSlice s)) (preambleFields s) (payloadSlice s)

/-- `decode(s)` (R102): the message, as its preamble and its payload, or the failure. -/
def decodeMessage (s : List Byte) : Except EngineFault (MsgRegs × List Byte) :=
  match decodeSteps s with
  | .tooShort => .error .truncatedMessage
  | .badHeader _ => .error .corruptMessage
  | .tooLong _ => .error .truncatedMessage
  | .badPayload _ => .error .corruptMessage
  | .accepted _ m p => .ok (m, p)

/-- Whether `MSG.ENCODE` has a meaning for a payload of `n` bytes (R101, R109). -/
def encodable (n : Nat) : Bool := Nat.ble n 4294967295 && Config.fits (16 + n)

/-- `MSG.ENCODE t` (R101): the payload is `IN`; `CRC` is left at the last checksum computed, the header's
(R110). Refused where R109 gives it no meaning. -/
def execMsgEncode (t : Word) (s : State) : Host.Outcome State Fault Refusal :=
  if encodable s.mem.inBuf.length then
    .next ((((s.setMsg (preambleOf t s.mem.inBuf)).setOut (encodeMessage t s.mem.inBuf)).setCrc
      (preambleOf t s.mem.inBuf).headerCrc).complete)
  else .refused .payloadTooLong

/-- `MSG.DECODE` (R103): the received bytes are `IN`. `CRC` keeps the last checksum computed (R110); a fault
empties `OUT` and leaves the message registers (R161). -/
def execMsgDecode (s : State) : Host.Outcome State Fault Refusal :=
  match decodeSteps s.mem.inBuf with
  | .tooShort => .next (s.raiseFault .truncatedMessage)
  | .badHeader sum => .next ((s.setCrc sum).raiseFault .corruptMessage)
  | .tooLong sum => .next ((s.setCrc sum).raiseFault .truncatedMessage)
  | .badPayload sum => .next ((s.setCrc sum).raiseFault .corruptMessage)
  | .accepted sum m p => .next (((s.setCrc sum).setMsg m).setOut p).complete

end Sys2Proof.Machine
end

