-- ==== Sys2Proof/Machine/CrcUnit.lean ====
section
/-! DEFINITION. The operations of the CRC unit: `CRC.INIT`, `CRC.WORD`, `CRC.SUM`, `CRC.READ` (spec/40_crc_engine.md R84 to R87). -/

namespace Sys2Proof.Machine

/-- `CRC.INIT` (R84). -/
def execCrcInit (s : State) : Host.Outcome State Fault Refusal :=
  .next (s.setCrc crcInitial).complete

/-- `CRC.WORD w` (R85). -/
def execCrcWord (w : Word) (s : State) : Host.Outcome State Fault Refusal :=
  .next (s.setCrc (foldWord s.crc w)).complete

/-- `CRC.SUM` (R86): from the initial value, not from the old `CRC`. -/
def execCrcSum (s : State) : Host.Outcome State Fault Refusal :=
  .next (s.setCrc (checksum s.mem.inBuf)).complete

/-- `CRC.READ` (R87): `CRC` is returned to the host as it is; nothing is written, not even `STATUS`. -/
def execCrcRead (s : State) : Host.Outcome State Fault Refusal :=
  .next (s.setReply (.word s.crc))

end Sys2Proof.Machine
end

