-- ==== Sys2Proof/Machine/MessageNames.lean ====
section
/-! DEFINITION. The four message type names of the opcode table (spec/30_encoding.md R59, R70; spec/41_message_codec.md R104). -/

namespace Sys2Proof.Machine

/-- The host is told the name of a message: the naming is the host's own (R104), no operation of the engine
takes part (R70), so no register and no buffer changes. Log entry 6. -/
def tellName (m : MessageType) (s : State) : State := s.setReply (.messageType m)

/-- A message whose first word is 0 is an `InfoRequest` (R59). -/
def execInfoRequest (s : State) : Host.Outcome State Fault Refusal := .next (tellName .infoRequest s)

/-- A message whose first word is 1 is a `ResetRequest` (R59). -/
def execResetRequest (s : State) : Host.Outcome State Fault Refusal := .next (tellName .resetRequest s)

/-- A message whose first word is 2 is a `HeaderRequest` (R59). -/
def execHeaderRequest (s : State) : Host.Outcome State Fault Refusal := .next (tellName .headerRequest s)

/-- A message whose first word is 3 is a `DataRequest` (R59). -/
def execDataRequest (s : State) : Host.Outcome State Fault Refusal := .next (tellName .dataRequest s)

end Sys2Proof.Machine
end

