-- ==== Sys2Proof/Machine/Payload.lean ====
section
/-! DEFINITION. The payload formats: `HDRREQ.PACK` and `INFO.PARSE` (spec/42_payload_formats.md R120 to R124). -/

namespace Sys2Proof.Machine

/-- `hdrreq_pack(n, c)` (R120): the reserved field 0, `total_length`, `total_crc`. -/
def packHeaderRequest (n c : Word) : List Byte := le32 0#32 ++ le32 n ++ le32 c

/-- `INFO_LEN`: 32 + 4 + 16 + 4 + 4 + 4 + 14 (R5, R62). -/
def infoLength : Nat := 78

/-- The fields of an `InfoResponse` payload of 78 bytes, at the offsets of R62 (R123). -/
def infoFields (s : List Byte) : DeviceInfo :=
  { version := slice s 0 32
    hwRev := le32dec (slice s 32 36)
    name := slice s 36 52
    id1 := le32dec (slice s 52 56)
    id2 := le32dec (slice s 56 60)
    id3 := le32dec (slice s 60 64)
    gitSha := slice s 64 78 }

/-- `info_parse(s)` (R123): the record, or `MalformedPayload` unless there are exactly 78 bytes. -/
def parseInfo (s : List Byte) : Except EngineFault DeviceInfo :=
  if s.length ≠ infoLength then .error .malformedPayload else .ok (infoFields s)

/-- `HDRREQ.PACK n, c` (R121). -/
def execHdrreqPack (n c : Word) (s : State) : Host.Outcome State Fault Refusal :=
  .next (s.setOut (packHeaderRequest n c)).complete

/-- `INFO.PARSE` (R124): the payload is the whole of `IN`; `CRC` and `OUT` are unchanged, also on a fault. -/
def execInfoParse (s : State) : Host.Outcome State Fault Refusal :=
  match parseInfo s.mem.inBuf with
  | .error f => .next (s.raiseFault f)
  | .ok d => .next (s.setInfo d).complete

end Sys2Proof.Machine
end

