-- ==== Sys2Proof/Machine/Dispatch.lean ====
section
/-! DEFINITION. Every instruction to its meaning, one arm each. -/

namespace Sys2Proof.Machine

def exec (i : Instr) (s : State) : Host.Outcome State Fault Refusal :=
  match i with
  | .crcInit => Sys2Proof.Machine.execCrcInit s
  | .crcWord w => Sys2Proof.Machine.execCrcWord w s
  | .crcSum => Sys2Proof.Machine.execCrcSum s
  | .crcRead => Sys2Proof.Machine.execCrcRead s
  | .msgEncode t => Sys2Proof.Machine.execMsgEncode t s
  | .msgDecode => Sys2Proof.Machine.execMsgDecode s
  | .hdrreqPack n c => Sys2Proof.Machine.execHdrreqPack n c s
  | .infoParse => Sys2Proof.Machine.execInfoParse s
  | .infoRequest => Sys2Proof.Machine.execInfoRequest s
  | .resetRequest => Sys2Proof.Machine.execResetRequest s
  | .headerRequest => Sys2Proof.Machine.execHeaderRequest s
  | .dataRequest => Sys2Proof.Machine.execDataRequest s

end Sys2Proof.Machine
end

