-- ==== Sys2Proof/Machine/HostActions.lean ====
section
/-! DEFINITION. What one host action does, and how the next one is taken (spec/70_reset_and_hazards.md R186; spec/10_state.md R18; spec/60_exceptions.md R167). -/

namespace Sys2Proof.Machine

/-- What comes of bits the decoder gives no instruction for: a reserved selector is refused (R67), a
message of an unnamed type is named `Unknown` (R104), too few bytes for a first word are refused. -/
def undecoded (e : DecodeError) (s : State) : Host.Outcome State Fault Refusal :=
  match e with
  | .reservedSelector sel => .refused (.reservedSelector sel)
  | .unknownType _ => .next (tellName .unknown s)
  | .shortMessage => .refused .shortMessage

/-- Decode and run: an operation runs to its end before anything else happens (R18, R46). -/
def runFetched (f : Fetched) (s : State) : Host.Outcome State Fault Refusal :=
  match decode f with
  | .ok i => exec i s
  | .error e => undecoded e s

/-- One host action (R186). -/
def hostAct (act : HostAction) (s : State) : Host.Outcome State Fault Refusal :=
  match act with
  | .issue cmd => runFetched (.command cmd) s
  | .nameMessage bytes => runFetched (.message bytes) s
  | .loadIn bytes => loadInput bytes s
  | .copyOut => loadInput s.mem.outBuf s
  | .read p => .next (s.setReply (readPort p s))
  | .reset => .next s.hostReset

/-- The host's next action; with none left the engine is idle and waits (R18, R180). -/
def hostNext (s : State) : Host.Outcome State Fault Refusal :=
  match s.script with
  | [] => .next s
  | act :: rest => hostAct act (s.setScript rest)

/-- The action that gives the decoder `f`. -/
def actionOf (f : Fetched) : HostAction :=
  match f with
  | .command cmd => .issue cmd
  | .message bytes => .nameMessage bytes

/-- The action that issues or names the instruction `i`. -/
def actionOfInstr (i : Instr) : HostAction := actionOf (encode i)

/-- Put an instruction of the opcode table, given by its bits, where `step` takes its next one. -/
def placeTableWord (nbits w : Nat) (s : State) : State :=
  match fetchedOfTable nbits w with
  | some f => s.setScript (actionOf f :: s.script)
  | none => s

end Sys2Proof.Machine
end

