-- ==== Sys2Proof/Machine/Client.lean ====
section
/-! DEFINITION. The software around the engine as pure functions: context, no part of the machine (spec/42_payload_formats.md R122, R125; spec/43_client_contracts.md R135 to R149). -/

namespace Sys2Proof.Machine

/-- The receiver's reading of a `HeaderRequest` payload, `total_length` and `total_crc` (R122); a payload
that is not 12 bytes long or whose reserved field is not 0 is refused (U4). -/
def readHeaderRequest (s : List Byte) : Option (Word × Word) :=
  if s.length == 12 && le32dec (slice s 0 4) == 0#32 then
    some (le32dec (slice s 4 8), le32dec (slice s 8 12))
  else none

/-- A hexadecimal digit, lower case (R125, D15). -/
def hexDigit (n : Nat) : Char :=
  ['0', '1', '2', '3', '4', '5', '6', '7', '8', '9', 'a', 'b', 'c', 'd', 'e', 'f'].getD n '0'

/-- The eight nibbles of a word, the most significant first. -/
def nibbles (v : Word) : List Nat :=
  [28, 24, 20, 16, 12, 8, 4, 0].map fun k => (v.extractLsb' k 4).toNat

/-- `hexmin(v)`: the hexadecimal numeral with the fewest digits, `0` for 0 (R125). -/
def hexMin (v : Word) : List Char :=
  match (nibbles v).dropWhile (· == 0) with
  | [] => ['0']
  | ds => ds.map hexDigit

/-- `device_id_text` (R125). -/
def deviceIdText (id1 id2 id3 : Word) : List Char := hexMin id1 ++ hexMin id2 ++ hexMin id3

/-- `IMAGE_HDR`, the header region of an image (R5, R63). -/
def imageHeader : Nat := 12

/-- The checksummed payload of an image, `image[12:]` (R135). -/
def imagePayload (image : List Byte) : List Byte := image.drop imageHeader

/-- Why `stamp` gives no image. -/
inductive StampStop where
  /-- `InvalidImage`: shorter than the header region (R139). -/
  | invalidImage
  /-- A payload of 2^32 bytes or more, whose size does not fit its field: refused (U6). -/
  | sizeTooLarge
  deriving DecidableEq, Repr

/-- `stamp(image)` (R136). -/
def stamp (image : List Byte) : Except StampStop (List Byte) :=
  if image.length < imageHeader then .error .invalidImage
  else if 4294967295 < (imagePayload image).length then .error .sizeTooLarge
  else .ok (slice image 0 4 ++ le32 (checksum (imagePayload image))
    ++ le32 (BitVec.ofNat 32 (imagePayload image).length) ++ imagePayload image)

/-- `PAGE`, firmware bytes in one `DataRequest` (R5, R143). -/
def pageLength : Nat := 1024

/-- At most `n` pages cut from the front of a firmware payload. -/
def cutPages (n : Nat) (f : List Byte) : List (List Byte) :=
  match n with
  | 0 => []
  | n + 1 => if f.isEmpty then [] else f.take pageLength :: cutPages n (f.drop pageLength)

/-- The pages of a firmware payload: 1024 bytes each, the last one shorter if need be, none for an empty
payload (R143). -/
def pages (f : List Byte) : List (List Byte) := cutPages f.length f

/-- The message of `queryInfo()` (R141). -/
def infoRequestMessage : List Byte := encodeMessage 0#32 []

/-- The message of `reset()` (R145). -/
def resetRequestMessage : List Byte := encodeMessage 1#32 []

/-- The `HeaderRequest` message of an upgrade (R142 step 1, R61). For a firmware payload of 2^32 bytes or more
the spec gives no `total_length` (U6 speaks of `stamp` only; R6 and N9: lengths are not to be taken to wrap):
the field is the free value of `lengthField`, DESIGN CHOICE, log entry 15. -/
def headerRequestMessage (image : List Byte) : List Byte :=
  encodeMessage 2#32
    (packHeaderRequest (lengthField (imagePayload image).length) (checksum (imagePayload image)))

/-- The `DataRequest` message of a page (R142 step 3). -/
def dataRequestMessage (page : List Byte) : List Byte := encodeMessage 3#32 page

/-- What `queryInfo` makes of the response: nothing on a timeout (R141), the record of the decoded
payload otherwise. -/
def infoOfResponse (response : Option (List Byte)) : Except EngineFault (Option DeviceInfo) :=
  match response with
  | none => .ok none
  | some bytes =>
    match decodeMessage bytes with
    | .error f => .error f
    | .ok (_, p) =>
      match parseInfo p with
      | .error f => .error f
      | .ok d => .ok (some d)

/-- How an upgrade ends (R142 steps 4 and 5). -/
inductive UpgradeEnd where
  | completed
  | aborted
  deriving DecidableEq, Repr

/-- What an upgrade sent, and its progress `(pages_sent, total_pages)` (R145). -/
structure UpgradeReport where
  sent : List (List Byte)
  pagesSent : Nat
  totalPages : Nat
  ending : UpgradeEnd
  deriving DecidableEq, Repr

/-- `upgrade(image)` over a transport whose first `good` page sends succeed and whose next one reports a
fault (R142, R144, R146); none for an image shorter than its header region (U15). With a payload of 2^32 bytes
or more it runs too, with a free `total_length` (log entry 15). -/
def upgrade (good : Nat) (image : List Byte) : Option UpgradeReport :=
  if image.length < imageHeader then none
  else if (pages (imagePayload image)).length ≤ good then
    some { sent := headerRequestMessage image :: ((pages (imagePayload image)).map dataRequestMessage
             ++ [infoRequestMessage, resetRequestMessage])
           pagesSent := (pages (imagePayload image)).length
           totalPages := (pages (imagePayload image)).length
           ending := .completed }
  else
    some { sent := headerRequestMessage image ::
             ((pages (imagePayload image)).take good).map dataRequestMessage
           pagesSent := good
           totalPages := (pages (imagePayload image)).length
           ending := .aborted }

end Sys2Proof.Machine
end

