-- ==== Sys2Proof/Machine/Pseudo.lean ====
section
/-! DEFINITION. The pseudo-operations: shorthands for sequences of host actions (spec/30_encoding.md R69). -/

namespace Sys2Proof.Machine

/-- `CHECKSUM <bytes>` (R69). -/
def pseudoChecksum (bytes : List Byte) : List HostAction :=
  [.loadIn bytes, actionOfInstr .crcSum]

/-- `CHECKSUM.STREAM <bytes>` (R69, R91): one `CRC.WORD` for each group. -/
def pseudoChecksumStream (bytes : List Byte) : List HostAction :=
  actionOfInstr .crcInit :: (groups bytes).map fun g => actionOfInstr (.crcWord (packGroup g))

/-- `MSG.INFOREQ` (R69). -/
def pseudoInfoReq : List HostAction := [.loadIn [], actionOfInstr (.msgEncode 0#32)]

/-- `MSG.RESETREQ` (R69). -/
def pseudoResetReq : List HostAction := [.loadIn [], actionOfInstr (.msgEncode 1#32)]

/-- `MSG.HDRREQ len, crc` (R69). -/
def pseudoHdrReq (len crc : Word) : List HostAction :=
  [actionOfInstr (.hdrreqPack len crc), .copyOut, actionOfInstr (.msgEncode 2#32)]

/-- `MSG.DATAREQ <page>` (R69). -/
def pseudoDataReq (page : List Byte) : List HostAction :=
  [.loadIn page, actionOfInstr (.msgEncode 3#32)]

end Sys2Proof.Machine
end

