-- ==== Sys2Proof/WellFormed.lean ====
section
/-! DEFINITION. Which instructions and which host actions are well formed (spec/30_encoding.md R65 to R67, spec/70_reset_and_hazards.md R186). -/

namespace Sys2Proof

open Sys2Proof.Machine

/-- Every operand of every instruction is a 32-bit word, all of whose values are legal (R85, R104, R121),
and its type says so: no instruction is ill formed. What can be ill formed is the host's action. -/
def Instr.wellFormed (i : Instr) : Bool :=
  match i with
  | .crcInit => true
  | .crcWord _ => true
  | .crcSum => true
  | .crcRead => true
  | .msgEncode _ => true
  | .msgDecode => true
  | .hdrreqPack _ _ => true
  | .infoParse => true
  | .infoRequest => true
  | .resetRequest => true
  | .headerRequest => true
  | .dataRequest => true

/-- The host actions to which the hardware gives a meaning (R186): a selector from `0x00` to `0x07`
(R67), at most `BUF_MAX` bytes loaded into `IN` (R167 c), a message with the first 32-bit word that the
naming reads (R70). -/
def Machine.HostAction.wellFormed (act : Machine.HostAction) : Bool :=
  match act with
  | .issue cmd => (commandSel cmd).toNat < 8
  | .nameMessage bytes => 4 ≤ bytes.length
  | .loadIn bytes => Config.fits bytes.length
  | .copyOut => true
  | .read _ => true
  | .reset => true

end Sys2Proof
end

