-- ==== Sys2Proof/Safety.lean ====
section
/-! DEFINITION. What counts as a safe run: the invariants of the state, runs of several steps, and the parts of the state that claims compare. -/

namespace Sys2Proof.Machine

/-- What every step keeps. `STATUS` is one of the four codes the engine writes (R13, R155); after a fault of
`MSG.DECODE`, as long as `STATUS` says so, `OUT` is empty (R161); both buffers are within `BUF_MAX` (R14,
R15); the text registers have their widths (R16). -/
structure State.Inv (s : State) : Prop where
  statusLegal : s.status = 0#3 ∨ s.status = 2#3 ∨ s.status = 3#3 ∨ s.status = 4#3
  discarded : s.status = 2#3 ∨ s.status = 3#3 → s.mem.outBuf = []
  memory : s.mem.wf = true
  versionWidth : s.info.version.length = 32
  nameWidth : s.info.name.length = 16
  gitShaWidth : s.info.gitSha.length = 14

/-- The header checksum in the message registers is that of the header they hold (R56, R57). -/
def MsgRegs.Verifies (m : MsgRegs) : Prop :=
  checksum (headerBytes m.typeId m.length m.payloadCrc) = m.headerCrc

/-- `n` steps, stopping at the first refusal. -/
def run (n : Nat) (s : State) : Host.Outcome State Fault Refusal :=
  match n with
  | 0 => .next s
  | n + 1 =>
    match step s with
    | .next t => run n t
    | .fault f => .fault f
    | .refused r => .refused r

/-- A safe run: `n` steps that all have a meaning. -/
def SafeFor (n : Nat) (s : State) : Prop := ∃ t, run n s = .next t

/-- A byte sequence with bit `j` of byte `k` flipped (R94, R106). -/
def flipBit (s : List Byte) (k j : Nat) : List Byte := s.modify k (· ^^^ (1#8 <<< j))

/-- Whether an action issues `MSG.ENCODE`, the one operation the hardware may give no meaning (R109). -/
def HostAction.encodes (act : HostAction) : Bool :=
  match act with
  | .issue cmd => commandSel cmd == 0x04#8
  | .nameMessage _ => false
  | .loadIn _ => false
  | .copyOut => false
  | .read _ => false
  | .reset => false

/-- What the host may do in a state without a refusal: a well-formed action, and `MSG.ENCODE` only where the
message fits `OUT` (R186, R109, R167). Naming a message is the model's action, not one of R186 (log entry 6). -/
def HostAction.Allowed (act : HostAction) (s : State) : Prop :=
  act.wellFormed = true ∧ (act.encodes = true → 16 + s.mem.inBuf.length ≤ Config.bufMax)

/-- For the next `n` steps every action the host makes is allowed in the state it makes it in. -/
def InterfaceKept (n : Nat) (s : State) : Prop :=
  match n with
  | 0 => True
  | n + 1 =>
    (∀ act, s.script.head? = some act → act.Allowed s) ∧ ∀ t, step s = .next t → InterfaceKept n t

/-- A state the hardware may be in right after reset: any value in the registers R22 leaves unspecified
(U3), nothing read, the host's actions `acts` to come. -/
def PossibleReset (acts : List HostAction) (s : State) : Prop :=
  ∃ m d, d.version.length = 32 ∧ d.name.length = 16 ∧ d.gitSha.length = 14 ∧
    s = State.afterReset m d .nothing acts 0

end Sys2Proof.Machine
end

