-- ==== Sys2Proof/Certificates/Slice0/Obligations.lean ====
section
/-! DEFINITION. The statements for the provers, each from the rules of spec/ its docstring names. -/

open Sys2Proof Sys2Proof.Machine

/-! ### Encoding -/

/-- Decoding an encoded instruction gives it back, for every instruction and every operand (R65, R66, R59). -/
def Obligations.DecodeInvertsEncode : Prop :=
  ∀ i : Instr, decode (encode i) = .ok i

/-- The selector table, at every value of both operands: an operand that an operation does not use is
ignored (R66, R65). -/
def Obligations.SelectorTable : Prop :=
  ∀ a b : Word,
    decode (.command (commandWord 0x00#8 a b)) = .ok .crcInit ∧
    decode (.command (commandWord 0x01#8 a b)) = .ok (.crcWord a) ∧
    decode (.command (commandWord 0x02#8 a b)) = .ok .crcSum ∧
    decode (.command (commandWord 0x03#8 a b)) = .ok .crcRead ∧
    decode (.command (commandWord 0x04#8 a b)) = .ok (.msgEncode a) ∧
    decode (.command (commandWord 0x05#8 a b)) = .ok .msgDecode ∧
    decode (.command (commandWord 0x06#8 a b)) = .ok (.hdrreqPack a b) ∧
    decode (.command (commandWord 0x07#8 a b)) = .ok .infoParse

/-- A selector from `0x08` to `0xFF` is refused: no step, no fault, no no-operation (R67). -/
def Obligations.ReservedSelectorsRefused : Prop :=
  ∀ (s : State) (cmd : BitVec 72) (rest : List HostAction),
    s.script = .issue cmd :: rest → 8 ≤ (commandSel cmd).toNat →
      step s = .refused (.reservedSelector (commandSel cmd))

/-- A few words written out in spec/95_test_vectors.md (P1 to P4) and the first words of R59. -/
def Obligations.SpecWordsDecode : Prop :=
  decodeTableWord 72 0x000000000000000000 = some .crcInit ∧
  decodeTableWord 72 0x000000003132333401 = some (.crcWord 0x31323334#32) ∧
  decodeTableWord 72 0x000000000000000304 = some (.msgEncode 3#32) ∧
  decodeTableWord 72 0xFE8F4F19000009C406 = some (.hdrreqPack 0x000009C4#32 0xFE8F4F19#32) ∧
  decodeTableWord 72 0x000000000000000007 = some .infoParse ∧
  decodeTableWord 32 0x00000002 = some .headerRequest ∧
  decodeTableWord 32 0x00000004 = none

/-- Little-endian fields: the four bytes of a word, and the two functions inverse to each other (R40). -/
def Obligations.LittleEndianInverse : Prop :=
  (∀ v : Word, le32 v =
    [v.extractLsb' 0 8, v.extractLsb' 8 8, v.extractLsb' 16 8, v.extractLsb' 24 8]) ∧
  (∀ v : Word, le32dec (le32 v) = v) ∧
  (∀ s : List Byte, s.length = 4 → le32 (le32dec s) = s)

/-! ### Steps and the host -/

/-- A step runs the decoded instruction, the action taken off the host's list; with no action left the
engine waits (R18, R180). The list of actions is the model's (log entry 5). -/
def Obligations.StepRunsDecoded : Prop :=
  (∀ (s : State) (f : Fetched) (i : Instr) (rest : List HostAction),
    s.script = actionOf f :: rest → decode f = .ok i → step s = exec i { s with script := rest }) ∧
  (∀ s : State, s.script = [] → step s = .next s)

/-- Naming a message: its first little-endian word decides, the bytes after it are not examined, 0 to 3 have
their names and every other word is `Unknown`; the engine is untouched (R104, R70, R59). Two things are the
model's choice, log entry 6: that the name is told to the host in `reply`, and that a message of fewer than 4
bytes, which has no first word, is refused as `shortMessage`. -/
def Obligations.MessageNaming : Prop :=
  (∀ (s : State) (t : Word) (more : List Byte) (rest : List HostAction),
    s.script = .nameMessage (le32 t ++ more) :: rest →
      step s = .next { s with script := rest, reply := .messageType (msgtype t) }) ∧
  (∀ (s : State) (bytes : List Byte) (rest : List HostAction),
    s.script = .nameMessage bytes :: rest → bytes.length < 4 → step s = .refused .shortMessage) ∧
  msgtype 0#32 = .infoRequest ∧ msgtype 1#32 = .resetRequest ∧
  msgtype 2#32 = .headerRequest ∧ msgtype 3#32 = .dataRequest ∧
  (∀ t : Word, 4 ≤ t.toNat → msgtype t = .unknown)

/-- Each of the four message names completes: the name is told, no register and no buffer changes (R59, R70;
the form is the model's, log entry 6). -/
def Obligations.MessageNamesComplete : Prop :=
  ∀ s : State,
    exec .infoRequest s = .next { s with reply := .messageType .infoRequest } ∧
    exec .resetRequest s = .next { s with reply := .messageType .resetRequest } ∧
    exec .headerRequest s = .next { s with reply := .messageType .headerRequest } ∧
    exec .dataRequest s = .next { s with reply := .messageType .dataRequest }

/-- The host's loads: `IN` is replaced, content and length; more than `BUF_MAX` bytes are refused (R186, R167). -/
def Obligations.HostLoads : Prop :=
  ∀ (s : State) (bytes : List Byte) (rest : List HostAction),
    (s.script = .loadIn bytes :: rest → bytes.length ≤ Config.bufMax →
      step s = .next { s with script := rest, mem := { s.mem with inBuf := bytes } }) ∧
    (s.script = .loadIn bytes :: rest → Config.bufMax < bytes.length →
      step s = .refused .loadTooLong) ∧
    (s.script = .copyOut :: rest → s.Inv →
      step s = .next { s with script := rest, mem := { s.mem with inBuf := s.mem.outBuf } })

/-- The host's reads: each returns the value of what it names and changes nothing else (R24, R186; that the
value is kept in `reply` is the model's, log entry 5). -/
def Obligations.HostReadsHaveNoSideEffect : Prop :=
  ∀ (s : State) (p : ReadPort) (rest : List HostAction), s.script = .read p :: rest →
    ∃ r, step s = .next { s with script := rest, reply := r } ∧
      (p = .status → r = .status s.status) ∧
      (p = .typeId → r = .word s.msg.typeId) ∧
      (p = .length → r = .word s.msg.length) ∧
      (p = .payloadCrc → r = .word s.msg.payloadCrc) ∧
      (p = .headerCrc → r = .word s.msg.headerCrc) ∧
      (p = .version → r = .bytes s.info.version) ∧
      (p = .hwRev → r = .word s.info.hwRev) ∧
      (p = .name → r = .bytes s.info.name) ∧
      (p = .id1 → r = .word s.info.id1) ∧
      (p = .id2 → r = .word s.info.id2) ∧
      (p = .id3 → r = .word s.info.id3) ∧
      (p = .gitSha → r = .bytes s.info.gitSha) ∧
      (p = .inBuf → r = .bytes s.mem.inBuf) ∧
      (p = .inLen → r = .count s.mem.inBuf.length) ∧
      (p = .outBuf → r = .bytes s.mem.outBuf) ∧
      (p = .outLen → r = .count s.mem.outBuf.length)

/-- Reset: `CRC` and `STATUS` at their reset values and both buffers empty, from every state, also when an
operation completed just before it, whatever that operation wrote (R22, R180). Of the message and DeviceInfo
registers nothing is said but the text registers' widths (R16). The clauses on `reply` and `script` are the
model's: what the host was told and has still to do is the host's (log entries 2 and 5). -/
def Obligations.ResetLeaves : Prop :=
  (∀ (s : State) (rest : List HostAction), s.script = .reset :: rest →
    ∃ t, step s = .next t ∧ t.crc = 0xFFFFFFFF#32 ∧ t.status = 0#3 ∧ t.mem = ⟨[], []⟩ ∧
      t.info.version.length = 32 ∧ t.info.name.length = 16 ∧ t.info.gitSha.length = 14 ∧
      t.reply = s.reply ∧ t.script = rest) ∧
  (∀ (s t : State) (f : Fetched) (i : Instr) (rest : List HostAction),
    s.script = actionOf f :: .reset :: rest → decode f = .ok i →
    exec i { s with script := .reset :: rest } = .next t →
      ∃ u, run 2 s = .next u ∧ u.crc = 0xFFFFFFFF#32 ∧ u.status = 0#3 ∧ u.mem = ⟨[], []⟩ ∧
        u.reply = t.reply ∧ u.script = rest)

/-! ### The checksum -/

/-- The table entry computed by the loop of R30 is the one the spec lists (R31). -/
def Obligations.TableIsTheListedOne : Prop :=
  listedTable.length = 256 ∧ ∀ i : Byte, listedTable[i.toNat]? = some (tableEntry i)

/-- The properties of the table: its first two entries, linearity, entries and their top bytes pairwise
different (R32). -/
def Obligations.TableProperties : Prop :=
  tableEntry 0#8 = 0#32 ∧ tableEntry 1#8 = 0x04C11DB7#32 ∧
  (∀ i j : Byte, tableEntry (i ^^^ j) = tableEntry i ^^^ tableEntry j) ∧
  (∀ i j : Byte, i ≠ j → tableEntry i ≠ tableEntry j ∧
    (tableEntry i).extractLsb' 24 8 ≠ (tableEntry j).extractLsb' 24 8)

/-- How the input is cut: the groups hold the bytes in buffer order, there are ceil(n / 4) of them, and all
but the last are full (R83, R191). -/
def Obligations.GroupsCoverTheInput : Prop :=
  ∀ b : List Byte,
    (groups b).flatMap Group.bytes = b ∧
    (groups b).length = (b.length + 3) / 4 ∧
    (∀ g ∈ (groups b).dropLast, g.bytes.length = 4)

/-- The equivalent forms of the checksum: of the zero-padded input, byte by byte, and bit by bit without the
table (R90). The bit-serial form and the loop behind the table are the spec's own supply, from general
knowledge and not in its source (log entry 7, PRESUMED; R30's and R90's marks G1, G2). -/
def Obligations.ChecksumForms : Prop :=
  ∀ b : List Byte,
    checksum b = checksum (pad4 b) ∧
    checksum b = foldBytes 0xFFFFFFFF#32 (pad4 b) ∧
    checksum b = bitSerial 0xFFFFFFFF#32 (pad4 b)

/-- Zero bytes added inside the last group do not change the checksum (R93). -/
def Obligations.PaddingAliases : Prop :=
  ∀ (b : List Byte) (k : Nat), b.length % 4 ≠ 0 → k ≤ 4 - b.length % 4 →
    checksum (b ++ List.replicate k 0#8) = checksum b

/-- Inputs of one length: the difference of their checksums is the bit-serial value of their difference from
register 0, and a single-bit change always changes the checksum (R94). The single-bit law is the spec's own
supply, from general knowledge (log entry 7, PRESUMED; R94's mark G5). -/
def Obligations.ChecksumDetectsSingleBits : Prop :=
  (∀ x y : List Byte, x.length = y.length →
    checksum x ^^^ checksum y = bitSerial 0#32 (pad4 (List.zipWith (· ^^^ ·) x y))) ∧
  (∀ (x : List Byte) (k j : Nat), k < x.length → j < 8 → checksum (flipBit x k j) ≠ checksum x)

/-- A change of one byte, whatever it is, changes the checksum: the folding step can be undone. It goes
beyond R94, which speaks of single bits, and follows from R80, R83 and the invertibility of the table that
the loop of R30 computes; that loop is the spec's own supply, from general knowledge (log entry 7, PRESUMED). -/
def Obligations.ChecksumDetectsByteChanges : Prop :=
  ∀ (front back : List Byte) (x y : Byte), x ≠ y →
    checksum (front ++ x :: back) ≠ checksum (front ++ y :: back)

/-! ### The CRC unit -/

/-- `CRC.INIT`, selector `0x00` (R84, decision D24). -/
def Obligations.CrcInitResult : Prop :=
  ∀ (s : State) (a b : Word),
    decode (.command (commandWord 0x00#8 a b)) = .ok .crcInit ∧
    exec .crcInit s = .next { s with crc := 0xFFFFFFFF#32, status := 0#3 }

/-- `CRC.WORD w`, selector `0x01`: one word folded in (R85, decision D24), with the corner cases of R85. -/
def Obligations.CrcWordResult : Prop :=
  (∀ (s : State) (w b : Word),
    decode (.command (commandWord 0x01#8 w b)) = .ok (.crcWord w) ∧
    exec (.crcWord w) s = .next { s with crc := foldWord s.crc w, status := 0#3 }) ∧
  foldWord 0xFFFFFFFF#32 0#32 = 0xC704DD7B#32 ∧
  foldWord 0xFFFFFFFF#32 0xFFFFFFFF#32 = 0#32 ∧
  foldWord 0#32 0#32 = 0#32 ∧
  foldWord 0xFFFFFFFF#32 0x31323334#32 = 0xA695C4AA#32

/-- `CRC.SUM`, selector `0x02`: the checksum of `IN`, at every length; nothing of the old `CRC` is in it;
the initial value for an empty `IN` (R86, R88). -/
def Obligations.CrcSumResult : Prop :=
  ∀ (s : State) (a b : Word),
    decode (.command (commandWord 0x02#8 a b)) = .ok .crcSum ∧
    exec .crcSum s = .next { s with crc := checksum s.mem.inBuf, status := 0#3 } ∧
    (s.mem.inBuf = [] → checksum s.mem.inBuf = 0xFFFFFFFF#32) ∧
    (s.mem.inBuf = [0x31#8, 0x32#8, 0x33#8, 0x34#8, 0x35#8, 0x36#8, 0x37#8, 0x38#8, 0x39#8] →
      checksum s.mem.inBuf = 0xAE24E09D#32)

/-- `CRC.READ`, selector `0x03`: `CRC` returned as it is, nothing written, not even `STATUS` (R87, decision
D24; that the host keeps it in `reply` is the model's, log entry 5). -/
def Obligations.CrcReadResult : Prop :=
  ∀ (s : State) (a b : Word),
    decode (.command (commandWord 0x03#8 a b)) = .ok .crcRead ∧
    exec .crcRead s = .next { s with reply := .word s.crc }

/-- The stream: `CRC.INIT` and one `CRC.WORD` for each group end, after that many steps, with the `CRC` that
loading the bytes and `CRC.SUM` end with (R91, R69). -/
def Obligations.StreamEqualsSum : Prop :=
  ∀ (s : State) (b : List Byte) (rest : List HostAction),
    run (1 + (groups b).length) { s with script := pseudoChecksumStream b ++ rest } =
      .next { s with crc := checksum b, status := 0#3, script := rest } ∧
    (b.length ≤ Config.bufMax →
      run 2 { s with script := pseudoChecksum b ++ rest } =
        .next { s with crc := checksum b, status := 0#3, script := rest,
                       mem := { s.mem with inBuf := b } })

/-- What `CRC.INIT`, `CRC.WORD` and `CRC.SUM` leave unchanged: everything but `CRC` and `STATUS`; what
`CRC.READ` and the message names leave unchanged: everything but what the host was told (R84 to R87, R70). -/
def Obligations.CrcUnitFrame : Prop :=
  ∀ (i : Instr) (s t : State), exec i s = .next t →
    ((i = .crcInit ∨ (∃ w, i = .crcWord w) ∨ i = .crcSum) →
      t.msg = s.msg ∧ t.info = s.info ∧ t.reply = s.reply ∧ t.script = s.script ∧
      t.resets = s.resets ∧ ∀ sp off, t.mem.readByte sp off = s.mem.readByte sp off) ∧
    ((i = .crcRead ∨ i = .infoRequest ∨ i = .resetRequest ∨ i = .headerRequest ∨ i = .dataRequest) →
      t.crc = s.crc ∧ t.status = s.status ∧ t.msg = s.msg ∧ t.info = s.info ∧ t.script = s.script ∧
      t.resets = s.resets ∧ ∀ sp off, t.mem.readByte sp off = s.mem.readByte sp off)

/-! ### The codec -/

/-- `MSG.ENCODE t`, selector `0x04`, completes whenever the payload's length fits its field and the message
fits `OUT`; `HEADER_CRC` and `CRC` are read back from bytes 12 to 15 of the message. It is refused in every
other case (R101, R109, decisions D12, D23). -/
def Obligations.MsgEncodeResult : Prop :=
  ∀ (s : State) (t b : Word),
    decode (.command (commandWord 0x04#8 t b)) = .ok (.msgEncode t) ∧
    (s.mem.inBuf.length ≤ 4294967295 → 16 + s.mem.inBuf.length ≤ Config.bufMax →
      exec (.msgEncode t) s = .next { s with
        msg := { typeId := t
                 length := BitVec.ofNat 32 s.mem.inBuf.length
                 payloadCrc := checksum s.mem.inBuf
                 headerCrc := le32dec (slice (encodeMessage t s.mem.inBuf) 12 16) }
        mem := { s.mem with outBuf := encodeMessage t s.mem.inBuf }
        crc := le32dec (slice (encodeMessage t s.mem.inBuf) 12 16)
        status := 0#3 }) ∧
    (4294967295 < s.mem.inBuf.length ∨ Config.bufMax < 16 + s.mem.inBuf.length →
      exec (.msgEncode t) s = .refused .payloadTooLong)

/-- `encode(t, p)`, byte for byte: the three header fields, their checksum, the payload (R100). -/
def Obligations.EncodedMessageLayout : Prop :=
  ∀ (t : Word) (p : List Byte), p.length ≤ 4294967295 →
    slice (encodeMessage t p) 0 4 = le32 t ∧
    slice (encodeMessage t p) 4 8 = le32 (BitVec.ofNat 32 p.length) ∧
    slice (encodeMessage t p) 8 12 = le32 (checksum p) ∧
    slice (encodeMessage t p) 12 16 = le32 (checksum (slice (encodeMessage t p) 0 12)) ∧
    (encodeMessage t p).drop 16 = p ∧
    (encodeMessage t p).length = 16 + p.length

/-- `MSG.DECODE`, selector `0x05`: the five ways it ends, in the order of the checks, with `CRC`, `STATUS`,
the field registers and `OUT` for each (R103 with R102; the order of the header checksum and the declared
length is the spec's decision D8). -/
def Obligations.MsgDecodeResult : Prop :=
  ∀ (s : State) (a b : Word),
    decode (.command (commandWord 0x05#8 a b)) = .ok .msgDecode ∧
    (s.mem.inBuf.length < 16 →
      exec .msgDecode s = .next { s with status := 3#3, mem := { s.mem with outBuf := [] } }) ∧
    (16 ≤ s.mem.inBuf.length →
      checksum (slice s.mem.inBuf 0 12) ≠ le32dec (slice s.mem.inBuf 12 16) →
      exec .msgDecode s = .next { s with
        crc := checksum (slice s.mem.inBuf 0 12)
        status := 2#3, mem := { s.mem with outBuf := [] } }) ∧
    (16 ≤ s.mem.inBuf.length →
      checksum (slice s.mem.inBuf 0 12) = le32dec (slice s.mem.inBuf 12 16) →
      s.mem.inBuf.length - 16 < (le32dec (slice s.mem.inBuf 4 8)).toNat →
      exec .msgDecode s = .next { s with
        crc := checksum (slice s.mem.inBuf 0 12)
        status := 3#3, mem := { s.mem with outBuf := [] } }) ∧
    (16 ≤ s.mem.inBuf.length →
      checksum (slice s.mem.inBuf 0 12) = le32dec (slice s.mem.inBuf 12 16) →
      (le32dec (slice s.mem.inBuf 4 8)).toNat ≤ s.mem.inBuf.length - 16 →
      ∀ p, p = slice s.mem.inBuf 16 (16 + (le32dec (slice s.mem.inBuf 4 8)).toNat) →
      (checksum p ≠ le32dec (slice s.mem.inBuf 8 12) →
        exec .msgDecode s = .next { s with
          crc := checksum p, status := 2#3, mem := { s.mem with outBuf := [] } }) ∧
      (checksum p = le32dec (slice s.mem.inBuf 8 12) →
        exec .msgDecode s = .next { s with
          msg := { typeId := le32dec (slice s.mem.inBuf 0 4)
                   length := le32dec (slice s.mem.inBuf 4 8)
                   payloadCrc := le32dec (slice s.mem.inBuf 8 12)
                   headerCrc := le32dec (slice s.mem.inBuf 12 16) }
          crc := checksum p, status := 0#3, mem := { s.mem with outBuf := p } }))

/-- What a successful `MSG.DECODE` hands over: both checksums verify, the length is the payload's, `CRC` is
the payload's checksum (R103, R110, R157). -/
def Obligations.DecodedMessageVerifies : Prop :=
  ∀ s t : State, exec .msgDecode s = .next t → t.status = 0#3 →
    t.msg.Verifies ∧ checksum t.mem.outBuf = t.msg.payloadCrc ∧
    t.mem.outBuf.length = t.msg.length.toNat ∧ t.crc = t.msg.payloadCrc

/-- A faulting `MSG.DECODE` hands nothing over: `OUT` is empty and the registers are the old ones (R161,
decision D13). -/
def Obligations.FaultingDecodeDiscards : Prop :=
  ∀ s t : State, exec .msgDecode s = .next t → t.status ≠ 0#3 →
    (t.status = 2#3 ∨ t.status = 3#3) ∧ t.mem.outBuf = [] ∧ t.mem.inBuf = s.mem.inBuf ∧
    t.msg = s.msg ∧ t.info = s.info

/-- Decoding an encoded message gives back its type, its payload and the fields it was built with, for
every type and every payload that has a length field (R105). -/
def Obligations.CodecRoundTrip : Prop :=
  ∀ (t : Word) (p : List Byte), p.length ≤ 4294967295 →
    decodeMessage (encodeMessage t p) = .ok
      ({ typeId := t
         length := BitVec.ofNat 32 p.length
         payloadCrc := checksum p
         headerCrc := checksum (le32 t ++ le32 (BitVec.ofNat 32 p.length) ++ le32 (checksum p)) }, p)

/-- Any single bit flipped in an encoded message is reported as corruption: at the header checksum for the
16 preamble bytes, at the payload checksum for the rest (R106). It rests on the single-bit law of R94, which
the spec supplies from general knowledge (log entry 7, PRESUMED). -/
def Obligations.SingleBitCorruptionDetected : Prop :=
  ∀ (t : Word) (p : List Byte) (k j : Nat), p.length ≤ 4294967295 → k < 16 + p.length → j < 8 →
    decodeMessage (flipBit (encodeMessage t p) k j) = .error .corruptMessage ∧
    (k < 16 → ∃ sum, decodeSteps (flipBit (encodeMessage t p) k j) = .badHeader sum) ∧
    (16 ≤ k → ∃ sum, decodeSteps (flipBit (encodeMessage t p) k j) = .badPayload sum)

/-- Bytes after the declared payload are not examined (R107). -/
def Obligations.TrailingBytesIgnored : Prop :=
  ∀ s : List Byte, (le32dec (slice s 4 8)).toNat + 16 < s.length →
    decodeMessage s = decodeMessage (slice s 0 (16 + (le32dec (slice s 4 8)).toNat))

/-- What the codec leaves unchanged: `IN`, the DeviceInfo registers and the host's side; `MSG.ENCODE` and
`MSG.DECODE` store to `OUT`, from offset 0, a sequence that replaces it whole (R101, R103, R36). -/
def Obligations.CodecFrame : Prop :=
  ∀ (i : Instr) (s t : State), exec i s = .next t → ((∃ ty, i = .msgEncode ty) ∨ i = .msgDecode) →
    t.info = s.info ∧ t.reply = s.reply ∧ t.script = s.script ∧ t.resets = s.resets ∧
    (∀ off, t.mem.readByte .input off = s.mem.readByte .input off) ∧
    (∀ ty, i = .msgEncode ty → ∀ off,
      t.mem.readByte .output off = (encodeMessage ty s.mem.inBuf)[off]?) ∧
    (i = .msgDecode → ∀ off,
      t.mem.readByte .output off =
        match decodeMessage s.mem.inBuf with
        | .ok (_, p) => p[off]?
        | .error _ => none)

/-! ### The payload formats -/

/-- `HDRREQ.PACK n, c`, selector `0x06`: the 12 bytes in `OUT`, nothing else but `STATUS` written (R121, R120). -/
def Obligations.HdrreqPackResult : Prop :=
  ∀ (s : State) (n c : Word),
    decode (.command (commandWord 0x06#8 n c)) = .ok (.hdrreqPack n c) ∧
    exec (.hdrreqPack n c) s = .next { s with
      mem := { s.mem with outBuf := le32 0#32 ++ le32 n ++ le32 c }, status := 0#3 }

/-- `INFO.PARSE`, selector `0x07`: the seven registers from a payload of exactly 78 bytes, `MalformedPayload`
and nothing else for every other length (R124, R158). -/
def Obligations.InfoParseResult : Prop :=
  ∀ (s : State) (a b : Word),
    decode (.command (commandWord 0x07#8 a b)) = .ok .infoParse ∧
    (s.mem.inBuf.length = 78 →
      exec .infoParse s = .next { s with
        info := { version := slice s.mem.inBuf 0 32
                  hwRev := le32dec (slice s.mem.inBuf 32 36)
                  name := slice s.mem.inBuf 36 52
                  id1 := le32dec (slice s.mem.inBuf 52 56)
                  id2 := le32dec (slice s.mem.inBuf 56 60)
                  id3 := le32dec (slice s.mem.inBuf 60 64)
                  gitSha := slice s.mem.inBuf 64 78 }
        status := 0#3 }) ∧
    (s.mem.inBuf.length ≠ 78 → exec .infoParse s = .next { s with status := 4#3 })

/-- What the payload operations leave unchanged: `CRC`, the message registers, `IN` and the host's side;
`HDRREQ.PACK` also the DeviceInfo registers, `INFO.PARSE` also `OUT` (R121, R124). -/
def Obligations.PayloadFrame : Prop :=
  ∀ (i : Instr) (s t : State), exec i s = .next t → ((∃ n c, i = .hdrreqPack n c) ∨ i = .infoParse) →
    t.crc = s.crc ∧ t.msg = s.msg ∧ t.reply = s.reply ∧ t.script = s.script ∧ t.resets = s.resets ∧
    (∀ off, t.mem.readByte .input off = s.mem.readByte .input off) ∧
    (∀ n c, i = .hdrreqPack n c → t.info = s.info ∧
      ∀ off, t.mem.readByte .output off = (le32 0#32 ++ le32 n ++ le32 c)[off]?) ∧
    (i = .infoParse → ∀ off, t.mem.readByte .output off = s.mem.readByte .output off)

/-- The shorthands that build the request messages leave the message in `OUT` (R69). -/
def Obligations.PseudoMessages : Prop :=
  ∀ (s : State) (rest : List HostAction),
    (∃ t, run 2 { s with script := pseudoInfoReq ++ rest } = .next t ∧
      t.mem.outBuf = encodeMessage 0#32 [] ∧ t.status = 0#3 ∧ t.script = rest) ∧
    (∃ t, run 2 { s with script := pseudoResetReq ++ rest } = .next t ∧
      t.mem.outBuf = encodeMessage 1#32 [] ∧ t.status = 0#3 ∧ t.script = rest) ∧
    (∀ n c, ∃ t, run 3 { s with script := pseudoHdrReq n c ++ rest } = .next t ∧
      t.mem.outBuf = encodeMessage 2#32 (packHeaderRequest n c) ∧ t.status = 0#3 ∧ t.script = rest) ∧
    (∀ page, 16 + page.length ≤ Config.bufMax →
      ∃ t, run 2 { s with script := pseudoDataReq page ++ rest } = .next t ∧
        t.mem.outBuf = encodeMessage 3#32 page ∧ t.status = 0#3 ∧ t.script = rest)

/-! ### Whole-machine rules -/

/-- Who writes what, over every instruction: `IN` never; `CRC`, the message registers, the DeviceInfo
registers and `OUT` only by the operations named for them; the message and DeviceInfo registers only when
the operation succeeds (R11, R12, R14, R15, R16, R24). -/
def Obligations.OnlyNamedWriters : Prop :=
  ∀ (i : Instr) (s t : State), exec i s = .next t →
    t.mem.inBuf = s.mem.inBuf ∧
    (t.crc ≠ s.crc → i = .crcInit ∨ (∃ w, i = .crcWord w) ∨ i = .crcSum ∨ (∃ ty, i = .msgEncode ty) ∨
      i = .msgDecode) ∧
    (t.msg ≠ s.msg → (∃ ty, i = .msgEncode ty) ∨ (i = .msgDecode ∧ t.status = 0#3)) ∧
    (t.info ≠ s.info → i = .infoParse ∧ t.status = 0#3) ∧
    (t.mem.outBuf ≠ s.mem.outBuf →
      (∃ ty, i = .msgEncode ty) ∨ i = .msgDecode ∨ (∃ n c, i = .hdrreqPack n c))

/-- `STATUS` after an operation: 0 or the code of a fault that operation can raise; unchanged by `CRC.READ`;
1, 5, 6 and 7 are never written (R13, R155, R159, decision D4). That the four message names leave it is the
model's reading of R70, by which they are no operations of the engine, so that R13 does not speak of them
(log entry 6, DEDUCED). -/
def Obligations.StatusAfterOperation : Prop :=
  ∀ (i : Instr) (s t : State), exec i s = .next t →
    (i = .crcInit ∨ (∃ w, i = .crcWord w) ∨ i = .crcSum ∨ (∃ ty, i = .msgEncode ty) ∨
      (∃ n c, i = .hdrreqPack n c) → t.status = 0#3) ∧
    (i = .msgDecode → t.status = 0#3 ∨ t.status = 2#3 ∨ t.status = 3#3) ∧
    (i = .infoParse → t.status = 0#3 ∨ t.status = 4#3) ∧
    (i = .crcRead ∨ i = .infoRequest ∨ i = .resetRequest ∨ i = .headerRequest ∨ i = .dataRequest →
      t.status = s.status)

/-- No operation reads `STATUS`: started with any other `STATUS` it ends the same way, in the same state but
for a `STATUS` it does not write (R19). -/
def Obligations.StatusNeverRead : Prop :=
  ∀ (i : Instr) (s : State) (v : BitVec 3),
    (∀ t, exec i s = .next t →
      ∃ t', exec i { s with status := v } = .next t' ∧ { t' with status := t.status } = t ∧
        (t'.status = t.status ∨ (t'.status = v ∧ t.status = s.status))) ∧
    (∀ r, exec i s = .refused r → exec i { s with status := v } = .refused r)

/-- What an operation can see of the engine is `CRC` and `IN`: from two states that agree on those, whatever
the others hold, it does the same, and each of the others is either left alone in both or given one value
in both (R35, R47). So no result rests on a register that R22 leaves unspecified. -/
def Obligations.OperationsSeeOnlyCrcAndInput : Prop :=
  ∀ (i : Instr) (s s' t : State), s.crc = s'.crc → s.mem.inBuf = s'.mem.inBuf → exec i s = .next t →
    ∃ t', exec i s' = .next t' ∧ t'.crc = t.crc ∧ t'.mem.inBuf = t.mem.inBuf ∧
      (t'.status = t.status ∨ (t.status = s.status ∧ t'.status = s'.status)) ∧
      (t'.msg = t.msg ∨ (t.msg = s.msg ∧ t'.msg = s'.msg)) ∧
      (t'.info = t.info ∨ (t.info = s.info ∧ t'.info = s'.info)) ∧
      (t'.mem.outBuf = t.mem.outBuf ∨
        (t.mem.outBuf = s.mem.outBuf ∧ t'.mem.outBuf = s'.mem.outBuf)) ∧
      (t'.reply = t.reply ∨ (t.reply = s.reply ∧ t'.reply = s'.reply))

/-- Every operation but `CRC.WORD`, repeated, changes nothing more (R47). -/
def Obligations.RepeatingChangesNothing : Prop :=
  ∀ (i : Instr) (s t : State), (∀ w, i ≠ .crcWord w) → exec i s = .next t → exec i t = .next t

/-- Every instruction completes in every state, but for `MSG.ENCODE` with a message too long for `OUT`; nothing
faults (R155, R109, R167). -/
def Obligations.EveryInstructionCompletes : Prop :=
  ∀ (i : Instr) (s : State),
    (∃ t, exec i s = .next t) ∨
    (∃ ty, i = .msgEncode ty ∧ Config.bufMax < 16 + s.mem.inBuf.length ∧
      exec i s = .refused .payloadTooLong)

/-- The invariant holds in every state the hardware may be in right after reset, whatever the registers
hold that R22 leaves unspecified, and in the model's own reset state (R22, R180). -/
def Obligations.ResetMeetsTheInvariant : Prop :=
  (∀ (acts : List HostAction) (s : State), PossibleReset acts s → s.Inv) ∧ PossibleReset [] State.reset

/-- Every step keeps the invariant: legal `STATUS`, nothing in `OUT` after a decode fault, buffers within
`BUF_MAX`, text registers at their widths (R13, R14, R15, R16, R161). -/
def Obligations.StepKeepsTheInvariant : Prop :=
  ∀ s t : State, s.Inv → step s = .next t → t.Inv

/-- Once the message registers hold a verified header, every step keeps them so, unless the host resets the
engine (R12, R157, R184). -/
def Obligations.HeaderStaysVerified : Prop :=
  ∀ s t : State, s.msg.Verifies → s.script.head? ≠ some .reset → step s = .next t → t.msg.Verifies

/-- A host that keeps to the interface never meets a refusal (R186, R167, R109): a step whose action is
allowed (`HostAction.Allowed`: `MSG.ENCODE` where the message fits `OUT`, everything else R186 lists always)
completes and keeps the invariant; so does every run of such steps, however long; and a list of well-formed
actions without `MSG.ENCODE` is such a run from every state. The action that names a message is the model's,
no action of R186 (log entry 6). -/
def Obligations.WellFormedHostIsSafe : Prop :=
  (∀ s : State, s.Inv → (∀ act, s.script.head? = some act → act.Allowed s) →
    ∃ t, step s = .next t ∧ t.Inv) ∧
  (∀ (n : Nat) (s : State), s.Inv → InterfaceKept n s → SafeFor n s) ∧
  (∀ (n : Nat) (s : State), (∀ act ∈ s.script, act.wellFormed = true ∧ act.encodes = false) →
    InterfaceKept n s)

/-! ### The image stamper -/

/-- Stamping an image: the stored checksum and size are those of its payload, the first four bytes and the
payload are kept, and stamping again changes nothing (R136, R137, R138; client software). -/
def Obligations.StampIsCorrect : Prop :=
  ∀ image : List Byte, 12 ≤ image.length → image.length - 12 ≤ 4294967295 →
    ∃ st, stamp image = .ok st ∧ st.length = image.length ∧ st.drop 12 = image.drop 12 ∧
      slice st 0 4 = slice image 0 4 ∧ checksum (st.drop 12) = le32dec (slice st 4 8) ∧
      (le32dec (slice st 8 12)).toNat = st.length - 12 ∧ stamp st = .ok st
end

