-- ==== Sys2Proof/Laws/Bytes.lean ====
section
/-! SUPPORT. The small lemmas of the byte-order, slicing, grouping and folding functions. -/

namespace Sys2Proof.Machine

@[simp] theorem le32_length (v : Word) : (le32 v).length = 4 := rfl

@[simp] theorem slice_length (s : List Byte) (i j : Nat) : (slice s i j).length = min (j - i) (s.length - i) := by
  simp [slice]

theorem commandSel_commandWord (sel : Byte) (a b : Word) : commandSel (commandWord sel a b) = sel := by
  ext k hk
  have h1 : 0 + k < 8 := by omega
  simp only [commandSel, commandWord, BitVec.getElem_extractLsb', BitVec.getLsbD_append, h1, if_true]
  simp [BitVec.getLsbD_eq_getElem hk]

theorem commandA_commandWord (sel : Byte) (a b : Word) : commandA (commandWord sel a b) = a := by
  ext k hk
  have h1 : ¬ (8 + k < 8) := by omega
  have h2 : 8 + k - 8 = k := by omega
  simp only [commandA, commandWord, BitVec.getElem_extractLsb', BitVec.getLsbD_append, h1, h2, hk,
    if_true, if_false]
  exact BitVec.getLsbD_eq_getElem hk

theorem commandB_commandWord (sel : Byte) (a b : Word) : commandB (commandWord sel a b) = b := by
  ext k hk
  have h1 : ¬ (40 + k < 8) := by omega
  have h2 : ¬ (40 + k - 8 < 32) := by omega
  have h3 : 40 + k - 8 - 32 = k := by omega
  simp only [commandB, commandWord, BitVec.getElem_extractLsb', BitVec.getLsbD_append, h1, h2, h3, if_false]
  exact BitVec.getLsbD_eq_getElem hk

/-- Up to 2^32 - 1 a length field holds the length (R100, R120). -/
theorem lengthField_of_le {n : Nat} (h : n ≤ 4294967295) : lengthField n = BitVec.ofNat 32 n := if_pos h

theorem lengthField_toNat {n : Nat} (h : n ≤ 4294967295) : (lengthField n).toNat = n := by
  rw [lengthField_of_le h, BitVec.toNat_ofNat]
  omega

@[simp] theorem headerBytes_length (t l pc : Word) : (headerBytes t l pc).length = 12 := rfl

@[simp] theorem encodeMessage_length (t : Word) (p : List Byte) : (encodeMessage t p).length = 16 + p.length := by
  simp [encodeMessage]
  omega

@[simp] theorem packHeaderRequest_length (n c : Word) : (packHeaderRequest n c).length = 12 := rfl

@[simp] theorem groups_four (b0 b1 b2 b3 : Byte) (rest : List Byte) :
    groups (b0 :: b1 :: b2 :: b3 :: rest) = .four b0 b1 b2 b3 :: groups rest := rfl

@[simp] theorem foldGroups_nil (reg : Word) : foldGroups reg [] = reg := rfl

@[simp] theorem foldGroups_cons (reg : Word) (g : Group) (gs : List Group) :
    foldGroups reg (g :: gs) = foldGroups (foldWord reg (packGroup g)) gs := rfl

@[simp] theorem foldBytes_nil (reg : Word) : foldBytes reg [] = reg := rfl

@[simp] theorem foldBytes_cons (reg : Word) (b : Byte) (bs : List Byte) :
    foldBytes reg (b :: bs) = foldBytes (foldByte reg b) bs := rfl

/-- The four byte lanes of a packed word, the first byte in the top one (R41, R64). -/
theorem be32dec_lanes (b0 b1 b2 b3 : Byte) :
    (be32dec b0 b1 b2 b3).extractLsb' 24 8 = b0 ∧ (be32dec b0 b1 b2 b3).extractLsb' 16 8 = b1 ∧
    (be32dec b0 b1 b2 b3).extractLsb' 8 8 = b2 ∧ (be32dec b0 b1 b2 b3).extractLsb' 0 8 = b3 := by
  refine ⟨?_, ?_, ?_, ?_⟩ <;> ext k hk <;> interval_cases k <;> simp [be32dec]

/-- Packing four bytes and folding the word takes the bytes in their order (R41, R81). -/
theorem foldWord_be32dec (reg : Word) (b0 b1 b2 b3 : Byte) :
    foldWord reg (be32dec b0 b1 b2 b3) = foldBytes reg [b0, b1, b2, b3] := by
  obtain ⟨h3, h2, h1, h0⟩ := be32dec_lanes b0 b1 b2 b3
  simp only [foldWord, h3, h2, h1, h0, foldBytes_cons, foldBytes_nil]

end Sys2Proof.Machine
end

