-- ==== Sys2Proof/Laws/State.lean ====
section
/-! SUPPORT. One lemma per field per update of the state, so that no proof unfolds a record update. -/

namespace Sys2Proof.Machine

@[simp] theorem State.setCrc_crc (v : Word) (s : State) : (s.setCrc v).crc = v := rfl
@[simp] theorem State.setCrc_status (v : Word) (s : State) : (s.setCrc v).status = s.status := rfl
@[simp] theorem State.setCrc_msg (v : Word) (s : State) : (s.setCrc v).msg = s.msg := rfl
@[simp] theorem State.setCrc_info (v : Word) (s : State) : (s.setCrc v).info = s.info := rfl
@[simp] theorem State.setCrc_reply (v : Word) (s : State) : (s.setCrc v).reply = s.reply := rfl
@[simp] theorem State.setCrc_script (v : Word) (s : State) : (s.setCrc v).script = s.script := rfl
@[simp] theorem State.setCrc_resets (v : Word) (s : State) : (s.setCrc v).resets = s.resets := rfl
@[simp] theorem State.setCrc_mem (v : Word) (s : State) : (s.setCrc v).mem = s.mem := rfl

@[simp] theorem State.setStatus_crc (v : BitVec 3) (s : State) : (s.setStatus v).crc = s.crc := rfl
@[simp] theorem State.setStatus_status (v : BitVec 3) (s : State) : (s.setStatus v).status = v := rfl
@[simp] theorem State.setStatus_msg (v : BitVec 3) (s : State) : (s.setStatus v).msg = s.msg := rfl
@[simp] theorem State.setStatus_info (v : BitVec 3) (s : State) : (s.setStatus v).info = s.info := rfl
@[simp] theorem State.setStatus_reply (v : BitVec 3) (s : State) : (s.setStatus v).reply = s.reply := rfl
@[simp] theorem State.setStatus_script (v : BitVec 3) (s : State) : (s.setStatus v).script = s.script := rfl
@[simp] theorem State.setStatus_resets (v : BitVec 3) (s : State) : (s.setStatus v).resets = s.resets := rfl
@[simp] theorem State.setStatus_mem (v : BitVec 3) (s : State) : (s.setStatus v).mem = s.mem := rfl

@[simp] theorem State.setMsg_crc (m : MsgRegs) (s : State) : (s.setMsg m).crc = s.crc := rfl
@[simp] theorem State.setMsg_status (m : MsgRegs) (s : State) : (s.setMsg m).status = s.status := rfl
@[simp] theorem State.setMsg_msg (m : MsgRegs) (s : State) : (s.setMsg m).msg = m := rfl
@[simp] theorem State.setMsg_info (m : MsgRegs) (s : State) : (s.setMsg m).info = s.info := rfl
@[simp] theorem State.setMsg_reply (m : MsgRegs) (s : State) : (s.setMsg m).reply = s.reply := rfl
@[simp] theorem State.setMsg_script (m : MsgRegs) (s : State) : (s.setMsg m).script = s.script := rfl
@[simp] theorem State.setMsg_resets (m : MsgRegs) (s : State) : (s.setMsg m).resets = s.resets := rfl
@[simp] theorem State.setMsg_mem (m : MsgRegs) (s : State) : (s.setMsg m).mem = s.mem := rfl

@[simp] theorem State.setInfo_crc (d : DeviceInfo) (s : State) : (s.setInfo d).crc = s.crc := rfl
@[simp] theorem State.setInfo_status (d : DeviceInfo) (s : State) : (s.setInfo d).status = s.status := rfl
@[simp] theorem State.setInfo_msg (d : DeviceInfo) (s : State) : (s.setInfo d).msg = s.msg := rfl
@[simp] theorem State.setInfo_info (d : DeviceInfo) (s : State) : (s.setInfo d).info = d := rfl
@[simp] theorem State.setInfo_reply (d : DeviceInfo) (s : State) : (s.setInfo d).reply = s.reply := rfl
@[simp] theorem State.setInfo_script (d : DeviceInfo) (s : State) : (s.setInfo d).script = s.script := rfl
@[simp] theorem State.setInfo_resets (d : DeviceInfo) (s : State) : (s.setInfo d).resets = s.resets := rfl
@[simp] theorem State.setInfo_mem (d : DeviceInfo) (s : State) : (s.setInfo d).mem = s.mem := rfl

@[simp] theorem State.setIn_crc (b : List Byte) (s : State) : (s.setIn b).crc = s.crc := rfl
@[simp] theorem State.setIn_status (b : List Byte) (s : State) : (s.setIn b).status = s.status := rfl
@[simp] theorem State.setIn_msg (b : List Byte) (s : State) : (s.setIn b).msg = s.msg := rfl
@[simp] theorem State.setIn_info (b : List Byte) (s : State) : (s.setIn b).info = s.info := rfl
@[simp] theorem State.setIn_inBuf (b : List Byte) (s : State) : (s.setIn b).mem.inBuf = b := rfl
@[simp] theorem State.setIn_outBuf (b : List Byte) (s : State) : (s.setIn b).mem.outBuf = s.mem.outBuf := rfl
@[simp] theorem State.setIn_reply (b : List Byte) (s : State) : (s.setIn b).reply = s.reply := rfl
@[simp] theorem State.setIn_script (b : List Byte) (s : State) : (s.setIn b).script = s.script := rfl
@[simp] theorem State.setIn_resets (b : List Byte) (s : State) : (s.setIn b).resets = s.resets := rfl

@[simp] theorem State.setOut_crc (b : List Byte) (s : State) : (s.setOut b).crc = s.crc := rfl
@[simp] theorem State.setOut_status (b : List Byte) (s : State) : (s.setOut b).status = s.status := rfl
@[simp] theorem State.setOut_msg (b : List Byte) (s : State) : (s.setOut b).msg = s.msg := rfl
@[simp] theorem State.setOut_info (b : List Byte) (s : State) : (s.setOut b).info = s.info := rfl
@[simp] theorem State.setOut_inBuf (b : List Byte) (s : State) : (s.setOut b).mem.inBuf = s.mem.inBuf := rfl
@[simp] theorem State.setOut_outBuf (b : List Byte) (s : State) : (s.setOut b).mem.outBuf = b := rfl
@[simp] theorem State.setOut_reply (b : List Byte) (s : State) : (s.setOut b).reply = s.reply := rfl
@[simp] theorem State.setOut_script (b : List Byte) (s : State) : (s.setOut b).script = s.script := rfl
@[simp] theorem State.setOut_resets (b : List Byte) (s : State) : (s.setOut b).resets = s.resets := rfl

@[simp] theorem State.setReply_crc (r : Reply) (s : State) : (s.setReply r).crc = s.crc := rfl
@[simp] theorem State.setReply_status (r : Reply) (s : State) : (s.setReply r).status = s.status := rfl
@[simp] theorem State.setReply_msg (r : Reply) (s : State) : (s.setReply r).msg = s.msg := rfl
@[simp] theorem State.setReply_info (r : Reply) (s : State) : (s.setReply r).info = s.info := rfl
@[simp] theorem State.setReply_reply (r : Reply) (s : State) : (s.setReply r).reply = r := rfl
@[simp] theorem State.setReply_script (r : Reply) (s : State) : (s.setReply r).script = s.script := rfl
@[simp] theorem State.setReply_resets (r : Reply) (s : State) : (s.setReply r).resets = s.resets := rfl
@[simp] theorem State.setReply_mem (r : Reply) (s : State) : (s.setReply r).mem = s.mem := rfl

@[simp] theorem State.setScript_crc (acts : List HostAction) (s : State) : (s.setScript acts).crc = s.crc := rfl
@[simp] theorem State.setScript_status (acts : List HostAction) (s : State) : (s.setScript acts).status = s.status := rfl
@[simp] theorem State.setScript_msg (acts : List HostAction) (s : State) : (s.setScript acts).msg = s.msg := rfl
@[simp] theorem State.setScript_info (acts : List HostAction) (s : State) : (s.setScript acts).info = s.info := rfl
@[simp] theorem State.setScript_reply (acts : List HostAction) (s : State) : (s.setScript acts).reply = s.reply := rfl
@[simp] theorem State.setScript_script (acts : List HostAction) (s : State) : (s.setScript acts).script = acts := rfl
@[simp] theorem State.setScript_resets (acts : List HostAction) (s : State) : (s.setScript acts).resets = s.resets := rfl
@[simp] theorem State.setScript_mem (acts : List HostAction) (s : State) : (s.setScript acts).mem = s.mem := rfl

@[simp] theorem State.complete_crc (s : State) : s.complete.crc = s.crc := rfl
@[simp] theorem State.complete_msg (s : State) : s.complete.msg = s.msg := rfl
@[simp] theorem State.complete_info (s : State) : s.complete.info = s.info := rfl
@[simp] theorem State.complete_mem (s : State) : s.complete.mem = s.mem := rfl
@[simp] theorem State.complete_reply (s : State) : s.complete.reply = s.reply := rfl
@[simp] theorem State.complete_script (s : State) : s.complete.script = s.script := rfl
@[simp] theorem State.complete_resets (s : State) : s.complete.resets = s.resets := rfl
@[simp] theorem State.complete_status (s : State) : s.complete.status = 0#3 := rfl

@[simp] theorem State.raiseFault_crc (f : EngineFault) (s : State) : (s.raiseFault f).crc = s.crc := by cases f <;> rfl
@[simp] theorem State.raiseFault_msg (f : EngineFault) (s : State) : (s.raiseFault f).msg = s.msg := by cases f <;> rfl
@[simp] theorem State.raiseFault_info (f : EngineFault) (s : State) : (s.raiseFault f).info = s.info := by cases f <;> rfl
@[simp] theorem State.raiseFault_reply (f : EngineFault) (s : State) : (s.raiseFault f).reply = s.reply := by cases f <;> rfl
@[simp] theorem State.raiseFault_script (f : EngineFault) (s : State) : (s.raiseFault f).script = s.script := by cases f <;> rfl
@[simp] theorem State.raiseFault_resets (f : EngineFault) (s : State) : (s.raiseFault f).resets = s.resets := by cases f <;> rfl
@[simp] theorem State.raiseFault_status (f : EngineFault) (s : State) : (s.raiseFault f).status = faultCode f := by cases f <;> rfl
@[simp] theorem State.raiseFault_inBuf (f : EngineFault) (s : State) : (s.raiseFault f).mem.inBuf = s.mem.inBuf := by cases f <;> rfl
@[simp] theorem State.raiseFault_corrupt_outBuf (s : State) : (s.raiseFault .corruptMessage).mem.outBuf = [] := rfl
@[simp] theorem State.raiseFault_truncated_outBuf (s : State) : (s.raiseFault .truncatedMessage).mem.outBuf = [] := rfl
@[simp] theorem State.raiseFault_malformed_outBuf (s : State) : (s.raiseFault .malformedPayload).mem.outBuf = s.mem.outBuf := rfl

@[simp] theorem State.hostReset_crc (s : State) : s.hostReset.crc = 0xFFFFFFFF#32 := rfl
@[simp] theorem State.hostReset_status (s : State) : s.hostReset.status = 0#3 := rfl
@[simp] theorem State.hostReset_msg (s : State) : s.hostReset.msg = unspecifiedMsg s.resets := rfl
@[simp] theorem State.hostReset_info (s : State) : s.hostReset.info = unspecifiedInfo s.resets := rfl
@[simp] theorem State.hostReset_mem (s : State) : s.hostReset.mem = ⟨[], []⟩ := rfl
@[simp] theorem State.hostReset_reply (s : State) : s.hostReset.reply = s.reply := rfl
@[simp] theorem State.hostReset_script (s : State) : s.hostReset.script = s.script := rfl
@[simp] theorem State.hostReset_resets (s : State) : s.hostReset.resets = s.resets + 1 := rfl

end Sys2Proof.Machine
end

