-- ==== Sys2Proof/Laws/Ops.lean ====
section
/-! SUPPORT. For each shared operation, what it can do: buffer capacity, memory, faults, host loads, one step. -/

namespace Sys2Proof

/-- `BUF_MAX` is at least 4112 and at most 2^32 + 15 (R5, D12). -/
theorem Config.bufMax_bounds : 4112 ≤ Config.bufMax ∧ Config.bufMax ≤ 4294967311 := by
  have h := Config.bufSlack.isLt
  unfold Config.bufMax
  omega

theorem Config.fits_iff (n : Nat) : Config.fits n = true ↔ n ≤ Config.bufMax := by
  have h := Config.bufMax_bounds
  simp only [Config.fits, Bool.or_eq_true, Nat.ble_eq]
  omega

theorem Config.fits_mono {n m : Nat} (h : n ≤ m) (hm : Config.fits m = true) : Config.fits n = true := by
  rw [Config.fits_iff] at *
  omega

/-- Every length up to 4112 fits, whatever `BUF_MAX` is. -/
theorem Config.fits_small {n : Nat} (h : n ≤ 4112) : Config.fits n = true := by
  have := Config.bufMax_bounds
  rw [Config.fits_iff]
  omega

namespace Machine

theorem Memory.wf_iff (m : Memory) :
    m.wf = true ↔ Config.fits m.inBuf.length = true ∧ Config.fits m.outBuf.length = true := by
  simp [Memory.wf]

theorem Memory.reset_wf : State.reset.mem.wf = true := by decide

/-- `IN <- bytes` keeps the memory well formed when the bytes fit. -/
theorem State.setIn_wf {s : State} {b : List Byte} (h : s.mem.wf = true) (hb : Config.fits b.length = true) :
    (s.setIn b).mem.wf = true := by
  simp_all [Memory.wf_iff]

/-- `OUT <- bytes` keeps the memory well formed when the bytes fit. -/
theorem State.setOut_wf {s : State} {b : List Byte} (h : s.mem.wf = true) (hb : Config.fits b.length = true) :
    (s.setOut b).mem.wf = true := by
  simp_all [Memory.wf_iff]

theorem State.raiseFault_wf {s : State} (f : EngineFault) (h : s.mem.wf = true) :
    (s.raiseFault f).mem.wf = true := by
  cases f
  · exact State.setOut_wf h (Config.fits_small (by simp))
  · exact State.setOut_wf h (Config.fits_small (by simp))
  · exact h

theorem State.hostReset_wf (s : State) : s.hostReset.mem.wf = true := by
  simp [Memory.wf_iff, Config.fits_small]

/-- The bytes of a space as cells: the addresses are 0, 1, 2, … in this order, so strictly rising. -/
theorem Memory.cells_addresses (m : Memory) (sp : Space) :
    (m.cells sp).map Prod.fst = List.range (m.bytes sp).length := by
  simp only [Memory.cells, List.map_map, Function.comp_def]
  exact List.ext_getElem (by simp) (by simp)

theorem Memory.cells_rising (m : Memory) (sp : Space) :
    ((m.cells sp).map Prod.fst).Pairwise (· < ·) := by
  rw [Memory.cells_addresses]
  exact List.pairwise_lt_range

/-- What a load answers: `IN` replaced and nothing else, or the refusal, and which of the two. -/
theorem loadInput_eq (b : List Byte) (s : State) :
    (Config.fits b.length = true ∧ loadInput b s = .next (s.setIn b)) ∨
      (Config.fits b.length = false ∧ loadInput b s = .refused .loadTooLong) := by
  unfold loadInput
  split <;> simp_all

theorem loadInput_next {b : List Byte} {s t : State} (h : loadInput b s = .next t) :
    Config.fits b.length = true ∧ t = s.setIn b := by
  rcases loadInput_eq b s with ⟨hf, he⟩ | ⟨_, he⟩ <;> simp_all

/-- `MSG.ENCODE` has a meaning exactly when the message fits `OUT`: the format's own limit follows (R109). -/
theorem encodable_iff (n : Nat) : encodable n = true ↔ 16 + n ≤ Config.bufMax := by
  have h := Config.bufMax_bounds
  simp only [encodable, Bool.and_eq_true, Nat.ble_eq, Config.fits_iff]
  omega

theorem step_idle {s : State} (h : s.script = []) : step s = .next s := by
  simp [step, hostNext, h]

theorem step_act {s : State} {act : HostAction} {rest : List HostAction} (h : s.script = act :: rest) :
    step s = hostAct act (s.setScript rest) := by
  simp [step, hostNext, h]

/-- What MSG.DECODE can do: one of the three endings of R103, told apart by the pure `decodeSteps`. -/
theorem execMsgDecode_cases (s : State) :
    (decodeSteps s.mem.inBuf = .tooShort ∧
      execMsgDecode s = .next (s.raiseFault .truncatedMessage)) ∨
    (∃ sum, decodeSteps s.mem.inBuf = .tooLong sum ∧
      execMsgDecode s = .next ((s.setCrc sum).raiseFault .truncatedMessage)) ∨
    (∃ sum, (decodeSteps s.mem.inBuf = .badHeader sum ∨ decodeSteps s.mem.inBuf = .badPayload sum) ∧
      execMsgDecode s = .next ((s.setCrc sum).raiseFault .corruptMessage)) ∨
    (∃ sum m p, decodeSteps s.mem.inBuf = .accepted sum m p ∧
      execMsgDecode s = .next (((s.setCrc sum).setMsg m).setOut p).complete) := by
  unfold execMsgDecode
  cases decodeSteps s.mem.inBuf <;> simp

end Machine
end Sys2Proof
end

