-- ==== Sys2Proof/Laws/Exec.lean ====
section
/-! SUPPORT. What an instruction and a step can do, said once: if it answers a next state, one of these cases holds. -/

namespace Sys2Proof.Machine

/-- Everything an instruction that answers a next state can have done. -/
theorem exec_next_cases {i : Instr} {s t : State} (h : exec i s = .next t) :
    (i = .crcInit ∧ t = (s.setCrc crcInitial).complete) ∨
    (∃ w, i = .crcWord w ∧ t = (s.setCrc (foldWord s.crc w)).complete) ∨
    (i = .crcSum ∧ t = (s.setCrc (checksum s.mem.inBuf)).complete) ∨
    (i = .crcRead ∧ t = s.setReply (.word s.crc)) ∨
    (∃ ty, i = .msgEncode ty ∧ encodable s.mem.inBuf.length = true ∧
      t = (((s.setMsg (preambleOf ty s.mem.inBuf)).setOut (encodeMessage ty s.mem.inBuf)).setCrc
        (preambleOf ty s.mem.inBuf).headerCrc).complete) ∨
    (i = .msgDecode ∧ execMsgDecode s = .next t) ∨
    (∃ n c, i = .hdrreqPack n c ∧ t = (s.setOut (packHeaderRequest n c)).complete) ∨
    (i = .infoParse ∧ s.mem.inBuf.length ≠ infoLength ∧ t = s.raiseFault .malformedPayload) ∨
    (i = .infoParse ∧ s.mem.inBuf.length = infoLength ∧ t = (s.setInfo (infoFields s.mem.inBuf)).complete) ∨
    (i = .infoRequest ∧ t = tellName .infoRequest s) ∨
    (i = .resetRequest ∧ t = tellName .resetRequest s) ∨
    (i = .headerRequest ∧ t = tellName .headerRequest s) ∨
    (i = .dataRequest ∧ t = tellName .dataRequest s) := by
  cases i <;> simp only [exec] at h
  case msgEncode ty =>
    unfold execMsgEncode at h
    split at h <;> cases h
    simp_all
  case msgDecode => simp [h]
  case infoParse =>
    unfold execInfoParse parseInfo at h
    by_cases hl : s.mem.inBuf.length = infoLength <;> simp [hl] at h <;> simp [hl, h]
  all_goals
    cases h
    simp

/-- Everything `MSG.DECODE` can have done, with the tests that led there (R102, R103). -/
theorem execMsgDecode_next_cases {s t : State} (h : execMsgDecode s = .next t) :
    (s.mem.inBuf.length < 16 ∧ t = s.raiseFault .truncatedMessage) ∨
    (16 ≤ s.mem.inBuf.length ∧
      checksum (slice s.mem.inBuf 0 12) ≠ (preambleFields s.mem.inBuf).headerCrc ∧
      t = (s.setCrc (checksum (slice s.mem.inBuf 0 12))).raiseFault .corruptMessage) ∨
    (16 ≤ s.mem.inBuf.length ∧
      checksum (slice s.mem.inBuf 0 12) = (preambleFields s.mem.inBuf).headerCrc ∧
      s.mem.inBuf.length - 16 < (preambleFields s.mem.inBuf).length.toNat ∧
      t = (s.setCrc (checksum (slice s.mem.inBuf 0 12))).raiseFault .truncatedMessage) ∨
    (16 ≤ s.mem.inBuf.length ∧
      checksum (slice s.mem.inBuf 0 12) = (preambleFields s.mem.inBuf).headerCrc ∧
      (preambleFields s.mem.inBuf).length.toNat ≤ s.mem.inBuf.length - 16 ∧
      checksum (payloadSlice s.mem.inBuf) ≠ (preambleFields s.mem.inBuf).payloadCrc ∧
      t = (s.setCrc (checksum (payloadSlice s.mem.inBuf))).raiseFault .corruptMessage) ∨
    (16 ≤ s.mem.inBuf.length ∧
      checksum (slice s.mem.inBuf 0 12) = (preambleFields s.mem.inBuf).headerCrc ∧
      (preambleFields s.mem.inBuf).length.toNat ≤ s.mem.inBuf.length - 16 ∧
      checksum (payloadSlice s.mem.inBuf) = (preambleFields s.mem.inBuf).payloadCrc ∧
      t = (((s.setCrc (checksum (payloadSlice s.mem.inBuf))).setMsg
        (preambleFields s.mem.inBuf)).setOut (payloadSlice s.mem.inBuf)).complete) := by
  unfold execMsgDecode decodeSteps at h
  split_ifs at h with h1 h2 h3 h4 <;> simp only [Host.Outcome.next.injEq] at h
  · exact .inl ⟨h1, h.symm⟩
  · exact .inr (.inl ⟨by omega, h2, h.symm⟩)
  · exact .inr (.inr (.inl ⟨by omega, not_ne_iff.1 h2, h3, h.symm⟩))
  · exact .inr (.inr (.inr (.inl ⟨by omega, not_ne_iff.1 h2, by omega, h4, h.symm⟩)))
  · exact .inr (.inr (.inr (.inr ⟨by omega, not_ne_iff.1 h2, by omega, not_ne_iff.1 h4, h.symm⟩)))

/-- No instruction touches the actions the host has still to make. -/
theorem exec_next_script {i : Instr} {s t : State} (h : exec i s = .next t) : t.script = s.script := by
  rcases exec_next_cases h with ⟨_, rfl⟩ | ⟨_, _, rfl⟩ | ⟨_, rfl⟩ | ⟨_, rfl⟩ | ⟨_, _, _, rfl⟩ | ⟨_, hd⟩ |
    ⟨_, _, _, rfl⟩ | ⟨_, _, rfl⟩ | ⟨_, _, rfl⟩ | ⟨_, rfl⟩ | ⟨_, rfl⟩ | ⟨_, rfl⟩ | ⟨_, rfl⟩
  case inr.inr.inr.inr.inr.inl =>
    rcases execMsgDecode_next_cases hd with
      ⟨_, rfl⟩ | ⟨_, _, rfl⟩ | ⟨_, _, _, rfl⟩ | ⟨_, _, _, _, rfl⟩ | ⟨_, _, _, _, rfl⟩ <;> rfl
  all_goals rfl

/-- Everything a step that answers a next state can have done: nothing, an instruction, a value told to the
host, a load of `IN`, a reset. -/
theorem step_next_cases {s t : State} (h : step s = .next t) :
    (s.script = [] ∧ t = s) ∨
    ∃ act rest, s.script = act :: rest ∧
      ((∃ f i, act = actionOf f ∧ decode f = .ok i ∧ exec i (s.setScript rest) = .next t) ∨
       (∃ r, t = (s.setScript rest).setReply r) ∨
       (∃ b, Config.fits b.length = true ∧ t = (s.setScript rest).setIn b) ∨
       (act = .reset ∧ t = (s.setScript rest).hostReset)) := by
  cases hs : s.script with
  | nil =>
    rw [step_idle hs] at h
    cases h
    exact .inl ⟨rfl, rfl⟩
  | cons act rest =>
    rw [step_act hs] at h
    have fetched : ∀ f, act = actionOf f → runFetched f (s.setScript rest) = .next t →
        (∃ f i, act = actionOf f ∧ decode f = .ok i ∧ exec i (s.setScript rest) = .next t) ∨
        (∃ r, t = (s.setScript rest).setReply r) := by
      intro f hf h
      unfold runFetched at h
      split at h
      · exact .inl ⟨f, _, hf, by assumption, h⟩
      · rename_i e _
        cases e <;> cases h
        exact .inr ⟨_, rfl⟩
    refine .inr ⟨act, rest, rfl, ?_⟩
    cases act with
    | issue cmd => exact (fetched (.command cmd) rfl h).imp_right .inl
    | nameMessage bytes => exact (fetched (.message bytes) rfl h).imp_right .inl
    | loadIn b =>
      obtain ⟨hb, rfl⟩ := loadInput_next h
      exact .inr (.inr (.inl ⟨_, hb, rfl⟩))
    | copyOut =>
      obtain ⟨hb, rfl⟩ := loadInput_next h
      exact .inr (.inr (.inl ⟨_, hb, rfl⟩))
    | read p =>
      cases h
      exact .inr (.inl ⟨_, rfl⟩)
    | reset =>
      cases h
      exact .inr (.inr (.inr ⟨rfl, rfl⟩))

end Sys2Proof.Machine
end

