-- ==== Sys2Proof/Laws/PerInstr.lean ====
section
/-! SUPPORT. Statements per instruction: the host can issue or name every instruction. -/

namespace Sys2Proof.Laws

open Sys2Proof.Machine

/-- The action that issues or names the instruction is one to which the hardware gives a meaning (R186). -/
def Issuable.Statement (i : Instr) : Prop := (actionOfInstr i).wellFormed = true

/-- A command word whose selector is below 8 can be issued (R66, R67). -/
theorem issuable_command {sel : Byte} (a b : Word) (h : sel.toNat < 8) :
    (HostAction.issue (commandWord sel a b)).wellFormed = true := by
  simpa [HostAction.wellFormed, commandSel_commandWord] using h

theorem Issuable.crcInit : Issuable.Statement .crcInit := issuable_command _ _ (by decide)
theorem Issuable.crcWord (w : Word) : Issuable.Statement (.crcWord w) := issuable_command _ _ (by decide)
theorem Issuable.crcSum : Issuable.Statement .crcSum := issuable_command _ _ (by decide)
theorem Issuable.crcRead : Issuable.Statement .crcRead := issuable_command _ _ (by decide)
theorem Issuable.msgEncode (t : Word) : Issuable.Statement (.msgEncode t) := issuable_command _ _ (by decide)
theorem Issuable.msgDecode : Issuable.Statement .msgDecode := issuable_command _ _ (by decide)
theorem Issuable.hdrreqPack (n c : Word) : Issuable.Statement (.hdrreqPack n c) := issuable_command _ _ (by decide)
theorem Issuable.infoParse : Issuable.Statement .infoParse := issuable_command _ _ (by decide)
theorem Issuable.infoRequest : Issuable.Statement .infoRequest := rfl
theorem Issuable.resetRequest : Issuable.Statement .resetRequest := rfl
theorem Issuable.headerRequest : Issuable.Statement .headerRequest := rfl
theorem Issuable.dataRequest : Issuable.Statement .dataRequest := rfl

end Sys2Proof.Laws
end

