-- ==== Sys2Proof/Tests/Slice0.lean ====
section
/-! SUPPORT. The model's own tests: decoding, each operation, ill-formed terms, and a witness for every statement with hypotheses. Expected values are those of spec/95_test_vectors.md (V, P) or of the rule named. -/

set_option Elab.async false

namespace Sys2Proof.Tests

open Sys2Proof Sys2Proof.Machine

/-- A state with `inB` in `IN`, values of its own in every register an operation might wrongly change, and
`acts` for the host to do. -/
def demo (inB : List Byte) (acts : List HostAction) : State :=
  { State.reset with
    crc := 0x0BADC0DE#32, status := 4#3, msg := ⟨7#32, 8#32, 9#32, 10#32⟩, mem := ⟨inB, [0xAA#8]⟩,
    script := acts }

/-- The next state of an outcome. -/
def after (o : Host.Outcome State Fault Refusal) : Option State :=
  match o with
  | .next t => some t
  | .fault _ => none
  | .refused _ => none

/-- Whether an outcome is this refusal. -/
def refusedBy (o : Host.Outcome State Fault Refusal) (r : Refusal) : Bool :=
  match o with
  | .next _ => false
  | .fault _ => false
  | .refused q => q == r

/-- `M5`, the message of V34. -/
def m5 : List Byte :=
  [0x03#8, 0x00#8, 0x00#8, 0x00#8, 0x05#8, 0x00#8, 0x00#8, 0x00#8, 0x15#8, 0x40#8, 0xF7#8, 0x8B#8,
   0xBB#8, 0x55#8, 0x77#8, 0x97#8, 0x12#8, 0x34#8, 0x56#8, 0x78#8, 0x9A#8]

/-- The message of V38a: a correct header that declares 6 bytes where 5 follow. -/
def m38a : List Byte :=
  [0x03#8, 0x00#8, 0x00#8, 0x00#8, 0x06#8, 0x00#8, 0x00#8, 0x00#8, 0x15#8, 0x40#8, 0xF7#8, 0x8B#8,
   0xE5#8, 0x30#8, 0x95#8, 0x7B#8, 0x12#8, 0x34#8, 0x56#8, 0x78#8, 0x9A#8]

/-- The payload of V50. -/
def v50 : List Byte :=
  [0x31#8, 0x2E#8, 0x32#8, 0x2E#8, 0x33#8] ++ List.replicate 27 0x00#8 ++
  [0x02#8, 0x00#8, 0x00#8, 0x00#8] ++
  [0x43#8, 0x41#8, 0x4E#8, 0x44#8, 0x72#8, 0x69#8, 0x76#8, 0x65#8] ++ List.replicate 8 0x00#8 ++
  [0xCD#8, 0xAB#8, 0x12#8, 0x00#8, 0x00#8, 0x00#8, 0x00#8, 0x00#8, 0xFF#8, 0xFF#8, 0xFF#8, 0xFF#8] ++
  [0x30#8, 0x31#8, 0x32#8, 0x33#8, 0x34#8, 0x35#8, 0x36#8, 0x37#8, 0x38#8, 0x39#8, 0x61#8, 0x62#8,
   0x63#8, 0x64#8]

/-! ### Ill-formed actions are told apart, one for each check -/

theorem test_selector_08_ill_formed :
    (HostAction.issue (commandWord 0x08#8 0#32 0#32)).wellFormed = false := by decide

theorem test_selector_07_well_formed :
    (HostAction.issue (commandWord 0x07#8 0#32 0#32)).wellFormed = true := by decide

theorem test_three_byte_message_ill_formed :
    (HostAction.nameMessage [0#8, 0#8, 0#8]).wellFormed = false := by decide

theorem test_oversize_load_ill_formed :
    (HostAction.loadIn (List.replicate (Config.bufMax + 1) 0#8)).wellFormed = false := by
  have h : ¬ Config.fits (Config.bufMax + 1) = true := by
    rw [Config.fits_iff]
    omega
  simp [HostAction.wellFormed, h]

theorem test_every_instruction_well_formed (i : Instr) : i.wellFormed = true := by cases i <;> rfl

/-! ### Decoding: words written out from R65, R66 and spec/95_test_vectors.md -/

theorem test_decode_crcInit : decodeTableWord 72 0x000000000000000000 = some .crcInit := by decide
theorem test_decode_crcWord : decodeTableWord 72 0x000000003132333401 = some (.crcWord 0x31323334#32) := by decide
theorem test_decode_crcSum : decodeTableWord 72 0x000000000000000002 = some .crcSum := by decide
theorem test_decode_crcRead : decodeTableWord 72 0x000000000000000003 = some .crcRead := by decide
theorem test_decode_msgEncode : decodeTableWord 72 0x000000000000000304 = some (.msgEncode 3#32) := by decide
theorem test_decode_msgDecode : decodeTableWord 72 0x000000000000000005 = some .msgDecode := by decide
theorem test_decode_hdrreqPack :
    decodeTableWord 72 0xFE8F4F19000009C406 = some (.hdrreqPack 2500#32 0xFE8F4F19#32) := by decide
theorem test_decode_infoParse : decodeTableWord 72 0x000000000000000007 = some .infoParse := by decide
theorem test_decode_infoRequest : decodeTableWord 32 0x00000000 = some .infoRequest := by decide
theorem test_decode_resetRequest : decodeTableWord 32 0x00000001 = some .resetRequest := by decide
theorem test_decode_headerRequest : decodeTableWord 32 0x00000002 = some .headerRequest := by decide
theorem test_decode_dataRequest : decodeTableWord 32 0x00000003 = some .dataRequest := by decide

/-- R65: the unused operands may hold anything. -/
theorem test_decode_ignores_unused : decodeTableWord 72 0xFFFFFFFFFFFFFFFF05 = some .msgDecode := by decide

/-- R67. -/
theorem test_decode_reserved : decodeTableWord 72 0x0000000000000000FF = none := by decide

/-- The type stands in the first byte of the message's little-endian word (R56, R59). -/
theorem test_decode_message_bytes :
    decode (.message [0x02#8, 0x00#8, 0x00#8, 0x00#8, 0x0C#8]) = .ok .headerRequest := by decide

theorem test_decode_message_big_endian_unnamed :
    decode (.message [0x00#8, 0x00#8, 0x00#8, 0x02#8]) = .error (.unknownType 0x02000000#32) := by decide

/-- `HDRREQ.PACK 2500, 0xFE8F4F19` is the word of P3 step 4. -/
theorem test_encode_hdrreqPack :
    encode (.hdrreqPack 2500#32 0xFE8F4F19#32) = .command 0xFE8F4F19000009C406#72 := by decide

/-! ### Functions: V1, V7, V13, V22, V23, V34, V52, V60 -/

theorem test_table_FF : tableEntry 0xFF#8 = 0xB1F740B4#32 := by decide
theorem test_fold_word : foldWord 0xFFFFFFFF#32 0x12345678#32 = 0xDF8A8A2B#32 := by decide

/-- V13: the byte-wise form without padding reproduces the published value. -/
theorem test_plain_bytes :
    foldBytes 0xFFFFFFFF#32 [0x31#8, 0x32#8, 0x33#8, 0x34#8, 0x35#8, 0x36#8, 0x37#8, 0x38#8, 0x39#8] =
      0x0376E6E7#32 := by decide

/-- V22 by the bit-serial form, which does not use the table. -/
theorem test_bit_serial :
    bitSerial 0xFFFFFFFF#32 (pad4 [0x12#8, 0x34#8, 0x56#8, 0x78#8, 0x9A#8]) = 0x8BF74015#32 := by
  decide +kernel

theorem test_encode_message : encodeMessage 3#32 [0x12#8, 0x34#8, 0x56#8, 0x78#8, 0x9A#8] = m5 := by
  decide +kernel

theorem test_device_id_text :
    deviceIdText 0x12ABCD0F#32 0xFFFFFF#32 0xF#32 =
      ['1', '2', 'a', 'b', 'c', 'd', '0', 'f', 'f', 'f', 'f', 'f', 'f', 'f', 'f'] := by decide

theorem test_stamp :
    (stamp [0x00#8, 0x50#8, 0x00#8, 0x20#8, 0#8, 0#8, 0#8, 0#8, 0#8, 0#8, 0#8, 0#8,
      0x12#8, 0x34#8, 0x56#8, 0x78#8, 0x9A#8]).toOption =
    some [0x00#8, 0x50#8, 0x00#8, 0x20#8, 0x15#8, 0x40#8, 0xF7#8, 0x8B#8, 0x05#8, 0x00#8, 0x00#8, 0x00#8,
      0x12#8, 0x34#8, 0x56#8, 0x78#8, 0x9A#8] := by decide +kernel

/-- S7: `N = 1025` gives two pages, 1024 and 1. -/
theorem test_pages : (pages (List.replicate 1025 0#8)).map List.length = [1024, 1] := by decide +kernel

/-! ### Operations, one step each -/

theorem test_crcInit : (after (exec .crcInit (demo [] []))).map (fun t => (t.crc, t.status)) =
    some (0xFFFFFFFF#32, 0#3) := by decide

/-- P1 step 2, from the state after reset. -/
theorem test_crcWord_step :
    (after (step (State.reset.withFetchWord 72 0x000000003132333401))).map (fun t => (t.crc, t.status)) =
      some (0xA695C4AA#32, 0#3) := by decide

/-- V23; the old `CRC` does not matter. -/
theorem test_crcSum :
    (after (exec .crcSum
      (demo [0x31#8, 0x32#8, 0x33#8, 0x34#8, 0x35#8, 0x36#8, 0x37#8, 0x38#8, 0x39#8] []))).map
        (fun t => (t.crc, t.status)) = some (0xAE24E09D#32, 0#3) := by decide +kernel

/-- R87: `STATUS` stays. -/
theorem test_crcRead : (after (exec .crcRead (demo [] []))).map (fun t => (t.reply, t.crc, t.status)) =
    some (.word 0x0BADC0DE#32, 0x0BADC0DE#32, 4#3) := by decide

/-- P2 step 2. -/
theorem test_msgEncode :
    (after (exec (.msgEncode 3#32) (demo [0x12#8, 0x34#8, 0x56#8, 0x78#8, 0x9A#8] []))).map
      (fun t => (t.mem.outBuf, t.msg, t.crc, t.status)) =
    some (m5, ⟨3#32, 5#32, 0x8BF74015#32, 0x977755BB#32⟩, 0x977755BB#32, 0#3) := by decide +kernel

/-- V30, from the state after reset. -/
theorem test_msgEncode_empty :
    (after (step (State.reset.withFetchWord 72 0x000000000000000004))).map (fun t => (t.mem.outBuf, t.crc)) =
    some ([0#8, 0#8, 0#8, 0#8, 0#8, 0#8, 0#8, 0#8, 0xFF#8, 0xFF#8, 0xFF#8, 0xFF#8,
      0x5A#8, 0x89#8, 0x98#8, 0xCE#8], 0xCE98895A#32) := by decide +kernel

/-- V36a: two bytes follow the message. -/
theorem test_msgDecode :
    (after (exec .msgDecode (demo (m5 ++ [0xEE#8, 0xEE#8]) []))).map
      (fun t => (t.mem.outBuf, t.msg, t.crc, t.status)) =
    some ([0x12#8, 0x34#8, 0x56#8, 0x78#8, 0x9A#8], ⟨3#32, 5#32, 0x8BF74015#32, 0x977755BB#32⟩,
      0x8BF74015#32, 0#3) := by decide +kernel

/-- V39: a stale header checksum over a raised length is corruption, not truncation (decision D8). -/
theorem test_msgDecode_stale_header :
    (after (exec .msgDecode (demo (m5.set 4 0x06#8) []))).map
      (fun t => (t.mem.outBuf, t.msg, t.crc, t.status)) =
    some ([], ⟨7#32, 8#32, 9#32, 10#32⟩, 0x7B9530E5#32, 2#3) := by decide +kernel

/-- V45. -/
theorem test_hdrreqPack :
    (after (exec (.hdrreqPack 2500#32 0xFE8F4F19#32) (demo [] []))).map (fun t => (t.mem.outBuf, t.crc)) =
    some ([0x00#8, 0x00#8, 0x00#8, 0x00#8, 0xC4#8, 0x09#8, 0x00#8, 0x00#8, 0x19#8, 0x4F#8, 0x8F#8, 0xFE#8],
      0x0BADC0DE#32) := by decide

/-- V50. -/
theorem test_infoParse :
    (after (exec .infoParse (demo v50 []))).map
      (fun t => (t.info.hwRev, t.info.id1, t.info.id3, t.info.gitSha, t.status)) =
    some (2#32, 0x0012ABCD#32, 0xFFFFFFFF#32,
      [0x30#8, 0x31#8, 0x32#8, 0x33#8, 0x34#8, 0x35#8, 0x36#8, 0x37#8, 0x38#8, 0x39#8, 0x61#8, 0x62#8,
       0x63#8, 0x64#8], 0#3) := by decide +kernel

/-- V51; `OUT` stays. -/
theorem test_infoParse_short :
    (after (exec .infoParse (demo (v50.take 77) []))).map (fun t => (t.mem.outBuf, t.status)) =
    some ([0xAA#8], 4#3) := by decide +kernel

theorem test_infoRequest_step :
    (after (step (State.reset.withFetchWord 32 0))).map (·.reply) = some (.messageType .infoRequest) := by
  decide
theorem test_resetRequest_step :
    (after (step (State.reset.withFetchWord 32 1))).map (·.reply) = some (.messageType .resetRequest) := by
  decide
theorem test_headerRequest_step :
    (after (step (State.reset.withFetchWord 32 2))).map (·.reply) = some (.messageType .headerRequest) := by
  decide
theorem test_dataRequest_step :
    (after (step (State.reset.withFetchWord 32 3))).map (·.reply) = some (.messageType .dataRequest) := by
  decide

theorem test_unnamed_message_step :
    (after (step (State.reset.withFetchWord 32 4))).map (·.reply) = some (.messageType .unknown) := by decide

theorem test_reserved_selector_step :
    refusedBy (step (State.reset.withFetchWord 72 0x08)) (.reservedSelector 0x08#8) = true := by decide

/-- P2 steps 2 and 3: encode, then `IN <- OUT`. -/
theorem test_copyOut :
    (after (step { demo [] [.copyOut] with mem := ⟨[], m5⟩ })).map (·.mem.inBuf) = some m5 := by
  decide +kernel

/-! ### Witnesses: for each statement with hypotheses, a state and operands that meet them together -/

theorem witness_ReservedSelectorsRefused :
    (demo [] [.issue 0x08#72]).script = [.issue 0x08#72] ∧ 8 ≤ (commandSel 0x08#72).toNat ∧
    8 ≤ (commandSel 0xFF#72).toNat := by decide

theorem witness_LittleEndianInverse : [0x15#8, 0x40#8, 0xF7#8, 0x8B#8].length = 4 := by decide

theorem witness_StepRunsDecoded :
    (demo [] [.issue 0x02#72]).script = actionOf (.command 0x02#72) :: [] ∧
    decode (.command 0x02#72) = .ok .crcSum ∧ State.reset.script = [] := by decide

theorem witness_MessageNaming :
    (demo [] [.nameMessage (le32 4#32 ++ [0#8])]).script = .nameMessage (le32 4#32 ++ [0#8]) :: [] ∧
    4 ≤ (4#32).toNat ∧ 4 ≤ (0xFFFFFFFF#32).toNat ∧
    (demo [] [.nameMessage [2#8, 0#8, 0#8]]).script = .nameMessage [2#8, 0#8, 0#8] :: [] ∧
    [2#8, 0#8, 0#8].length < 4 ∧ ([] : List Byte).length < 4 := by decide

theorem demo_inv : (demo [] [.copyOut]).Inv :=
  ⟨by decide, by decide, by decide, by decide, by decide, by decide⟩

theorem witness_HostLoads :
    ((demo [] [.loadIn (List.replicate Config.bufMax 0#8)]).script =
        .loadIn (List.replicate Config.bufMax 0#8) :: [] ∧
      (List.replicate Config.bufMax 0#8).length ≤ Config.bufMax) ∧
    ((demo [] [.loadIn (List.replicate (Config.bufMax + 1) 0#8)]).script =
        .loadIn (List.replicate (Config.bufMax + 1) 0#8) :: [] ∧
      Config.bufMax < (List.replicate (Config.bufMax + 1) 0#8).length) ∧
    ((demo [] [.copyOut]).script = .copyOut :: [] ∧ (demo [] [.copyOut]).Inv) :=
  ⟨⟨rfl, by simp⟩, ⟨rfl, by simp⟩, rfl, demo_inv⟩

theorem witness_HostReadsHaveNoSideEffect : (demo [] [.read .outLen]).script = .read .outLen :: [] := rfl

theorem witness_ResetLeaves :
    (demo [] [.reset]).script = .reset :: [] ∧
    (demo [] [.issue 0x02#72, .reset]).script = actionOf (.command 0x02#72) :: .reset :: [] ∧
    decode (.command 0x02#72) = .ok .crcSum ∧
    ∃ t, exec .crcSum { demo [] [.issue 0x02#72, .reset] with script := .reset :: [] } = .next t :=
  ⟨rfl, rfl, by decide, _, rfl⟩

theorem witness_TableProperties : (0x00#8) ≠ (0xFF#8) := by decide

theorem witness_GroupsCoverTheInput :
    Group.four 1#8 2#8 3#8 4#8 ∈ (groups [1#8, 2#8, 3#8, 4#8, 5#8]).dropLast := by decide

theorem witness_PaddingAliases :
    [0x01#8].length % 4 ≠ 0 ∧ 3 ≤ 4 - [0x01#8].length % 4 ∧ 0 ≤ 4 - [0x01#8].length % 4 := by decide

theorem witness_ChecksumDetectsSingleBits :
    [1#8, 2#8].length = [3#8, 4#8].length ∧ 1 < [1#8, 2#8].length ∧ 7 < 8 := by decide

theorem witness_ChecksumDetectsByteChanges : (0x00#8) ≠ (0x01#8) := by decide

theorem witness_CrcSumResult :
    (demo [] []).mem.inBuf = [] ∧
    (demo [0x31#8, 0x32#8, 0x33#8, 0x34#8, 0x35#8, 0x36#8, 0x37#8, 0x38#8, 0x39#8] []).mem.inBuf =
      [0x31#8, 0x32#8, 0x33#8, 0x34#8, 0x35#8, 0x36#8, 0x37#8, 0x38#8, 0x39#8] := by decide

theorem witness_StreamEqualsSum : (List.replicate 4112 0#8).length ≤ Config.bufMax := by
  rw [List.length_replicate]
  exact Config.bufMax_bounds.1

theorem witness_CrcUnitFrame :
    (∃ t, exec (.crcWord 1#32) (demo [] []) = .next t) ∧ (∃ t, exec .crcRead (demo [] []) = .next t) :=
  ⟨⟨_, rfl⟩, ⟨_, rfl⟩⟩

/-- At the largest payload the smallest capacity takes, 4096 bytes. -/
theorem witness_MsgEncodeResult :
    (demo (List.replicate 4096 0#8) []).mem.inBuf.length ≤ 4294967295 ∧
    16 + (demo (List.replicate 4096 0#8) []).mem.inBuf.length ≤ Config.bufMax := by
  have h := Config.bufMax_bounds.1
  simp only [demo, List.length_replicate]
  omega

theorem witness_EncodedMessageLayout : ([] : List Byte).length ≤ 4294967295 := by decide

/-- Each alternative of the refusal: one byte past the length field, one byte past `OUT`. -/
theorem witness_MsgEncodeResult_refused :
    4294967295 < (demo (List.replicate 4294967296 0#8) []).mem.inBuf.length ∧
    Config.bufMax < 16 + (demo (List.replicate (Config.bufMax - 15) 0#8) []).mem.inBuf.length := by
  have h := Config.bufMax_bounds.1
  simp only [demo, List.length_replicate]
  omega

/-- The five endings: 15 bytes; V39; V38 at exactly 16 bytes; V39b; V36, whose payload fills what is there. -/
theorem witness_MsgDecodeResult_short : (demo (m5.take 15) []).mem.inBuf.length < 16 := by decide

theorem witness_MsgDecodeResult_header :
    16 ≤ (m5.set 4 0x06#8).length ∧
    checksum (slice (m5.set 4 0x06#8) 0 12) ≠ le32dec (slice (m5.set 4 0x06#8) 12 16) := by decide +kernel

theorem witness_MsgDecodeResult_long :
    16 ≤ m38a.length ∧ checksum (slice m38a 0 12) = le32dec (slice m38a 12 16) ∧
    m38a.length - 16 < (le32dec (slice m38a 4 8)).toNat := by decide +kernel

theorem witness_MsgDecodeResult_payload :
    16 ≤ (m5.set 16 0x13#8).length ∧
    checksum (slice (m5.set 16 0x13#8) 0 12) = le32dec (slice (m5.set 16 0x13#8) 12 16) ∧
    (le32dec (slice (m5.set 16 0x13#8) 4 8)).toNat ≤ (m5.set 16 0x13#8).length - 16 ∧
    checksum (slice (m5.set 16 0x13#8) 16 (16 + (le32dec (slice (m5.set 16 0x13#8) 4 8)).toNat)) ≠
      le32dec (slice (m5.set 16 0x13#8) 8 12) := by decide +kernel

theorem witness_MsgDecodeResult_accepted :
    16 ≤ m5.length ∧ checksum (slice m5 0 12) = le32dec (slice m5 12 16) ∧
    (le32dec (slice m5 4 8)).toNat ≤ m5.length - 16 ∧
    checksum (slice m5 16 (16 + (le32dec (slice m5 4 8)).toNat)) = le32dec (slice m5 8 12) := by
  decide +kernel

theorem witness_DecodedMessageVerifies :
    (after (exec .msgDecode (demo m5 []))).map (·.status) = some 0#3 := by decide +kernel

theorem witness_FaultingDecodeDiscards :
    (after (exec .msgDecode (demo (m5.take 15) []))).map (·.status) = some 3#3 ∧
    (after (exec .msgDecode (demo (m5.set 16 0x13#8) []))).map (·.status) = some 2#3 := by decide +kernel

theorem witness_CodecRoundTrip : [0x01#8, 0x00#8].length ≤ 4294967295 := by decide

/-- One flip in the preamble (its last bit) and one in the payload (its first bit). -/
theorem witness_SingleBitCorruptionDetected :
    [0x01#8].length ≤ 4294967295 ∧ 15 < 16 + [0x01#8].length ∧ 16 < 16 + [0x01#8].length ∧ 7 < 8 ∧ 0 < 8 := by
  decide

theorem witness_TrailingBytesIgnored :
    (le32dec (slice (m5 ++ [0xEE#8]) 4 8)).toNat + 16 < (m5 ++ [0xEE#8]).length := by decide +kernel

theorem witness_CodecFrame :
    (∃ t, exec (.msgEncode 3#32) (demo [] []) = .next t) ∧ (∃ t, exec .msgDecode (demo [] []) = .next t) :=
  ⟨⟨_, rfl⟩, ⟨_, rfl⟩⟩

theorem witness_InfoParseResult :
    (demo v50 []).mem.inBuf.length = 78 ∧ (demo (v50.take 77) []).mem.inBuf.length ≠ 78 ∧
    (demo (v50 ++ [0#8]) []).mem.inBuf.length ≠ 78 := by decide +kernel

theorem witness_PayloadFrame :
    (∃ t, exec (.hdrreqPack 1#32 2#32) (demo [] []) = .next t) ∧
    (∃ t, exec .infoParse (demo [] []) = .next t) := ⟨⟨_, rfl⟩, ⟨_, rfl⟩⟩

theorem witness_PseudoMessages : 16 + (List.replicate 1024 0xAA#8).length ≤ Config.bufMax := by
  have h := Config.bufMax_bounds.1
  rw [List.length_replicate]
  omega

/-- A change of each register that only named operations write. -/
theorem witness_OnlyNamedWriters :
    (after (exec .crcInit (demo [] []))).map (fun t => decide (t.crc ≠ (demo [] []).crc)) = some true ∧
    (after (exec .msgDecode (demo m5 []))).map
      (fun t => decide (t.msg ≠ (demo m5 []).msg ∧ t.mem.outBuf ≠ (demo m5 []).mem.outBuf)) = some true ∧
    (after (exec .infoParse (demo v50 []))).map (fun t => decide (t.info ≠ (demo v50 []).info)) =
      some true := by decide +kernel

theorem witness_StatusAfterOperation :
    (∃ t, exec .crcSum (demo [] []) = .next t) ∧ (∃ t, exec .msgDecode (demo [] []) = .next t) ∧
    (∃ t, exec .infoParse (demo [] []) = .next t) ∧ (∃ t, exec .dataRequest (demo [] []) = .next t) :=
  ⟨⟨_, rfl⟩, ⟨_, rfl⟩, ⟨_, rfl⟩, ⟨_, rfl⟩⟩

/-- Both clauses: an operation that completes, and one that is refused. -/
theorem witness_StatusNeverRead :
    (∃ t, exec .crcRead (demo [] []) = .next t) ∧
    exec (.msgEncode 0#32) (demo (List.replicate Config.bufMax 0#8) []) = .refused .payloadTooLong := by
  refine ⟨⟨_, rfl⟩, ?_⟩
  have h : ¬ encodable (demo (List.replicate Config.bufMax 0#8) []).mem.inBuf.length = true := by
    rw [encodable_iff]
    simp only [demo, List.length_replicate]
    omega
  simp only [exec, execMsgEncode]
  rw [if_neg h]

/-- Two states that agree on `CRC` and `IN` and on little else. -/
theorem witness_OperationsSeeOnlyCrcAndInput :
    (demo m5 []).crc = ({ State.reset with crc := 0x0BADC0DE#32, mem := ⟨m5, []⟩ } : State).crc ∧
    (demo m5 []).mem.inBuf =
      ({ State.reset with crc := 0x0BADC0DE#32, mem := ⟨m5, []⟩ } : State).mem.inBuf ∧
    ∃ t, exec .crcRead (demo m5 []) = .next t := ⟨rfl, rfl, _, rfl⟩

theorem witness_RepeatingChangesNothing :
    (∀ w, Instr.crcSum ≠ .crcWord w) ∧ ∃ t, exec .crcSum (demo m5 []) = .next t :=
  ⟨fun _ h => (by cases h), ⟨_, rfl⟩⟩

theorem witness_ResetMeetsTheInvariant :
    PossibleReset [.copyOut] (State.afterReset ⟨1#32, 2#32, 3#32, 4#32⟩
      ⟨List.replicate 32 1#8, 5#32, List.replicate 16 2#8, 6#32, 7#32, 8#32, List.replicate 14 3#8⟩
      .nothing [.copyOut] 0) :=
  ⟨_, _, by decide, by decide, by decide, rfl⟩

theorem witness_StepKeepsTheInvariant :
    (demo [] [.copyOut]).Inv ∧ (after (step (demo [] [.copyOut]))).isSome = true := ⟨demo_inv, by decide⟩

/-- Message registers that verify: those of V30. -/
theorem witness_HeaderStaysVerified :
    MsgRegs.Verifies ⟨0#32, 0#32, 0xFFFFFFFF#32, 0xCE98895A#32⟩ ∧
    (demo [] [.issue 0x05#72]).script.head? ≠ some .reset ∧
    (after (step (demo [] [.issue 0x05#72]))).isSome = true :=
  ⟨by unfold MsgRegs.Verifies; decide +kernel, by decide, by decide +kernel⟩

theorem witness_WellFormedHostIsSafe :
    (demo [] [.copyOut]).Inv ∧
    ∀ act ∈ (demo [] [.copyOut]).script, act.wellFormed = true ∧ act.encodes = false :=
  ⟨demo_inv, by decide⟩

/-- The other clauses, with the action they turn on: `MSG.ENCODE` of the largest payload that every
capacity takes, 4096 bytes. -/
theorem witness_WellFormedHostIsSafe_encode :
    (demo (List.replicate 4096 0#8) [.issue 0x04#72]).Inv ∧
    (∀ act, (demo (List.replicate 4096 0#8) [.issue 0x04#72]).script.head? = some act →
      act.Allowed (demo (List.replicate 4096 0#8) [.issue 0x04#72])) ∧
    HostAction.encodes (.issue 0x04#72) = true ∧
    InterfaceKept 1 (demo (List.replicate 4096 0#8) [.issue 0x04#72]) := by
  have fit : Config.fits 4096 = true := by decide
  have allowed : ∀ act, (demo (List.replicate 4096 0#8) [.issue 0x04#72]).script.head? = some act →
      act.Allowed (demo (List.replicate 4096 0#8) [.issue 0x04#72]) := by
    have h := Config.bufMax_bounds.1
    intro act ha
    cases ha
    refine ⟨by decide, fun _ => ?_⟩
    simp only [demo, List.length_replicate]
    omega
  refine ⟨⟨by decide, by decide, ?_, by decide, by decide, by decide⟩, allowed, by decide,
    allowed, fun _ _ => trivial⟩
  rw [Memory.wf_iff]
  simp only [demo, List.length_replicate]
  exact ⟨fit, by decide⟩

theorem witness_StampIsCorrect :
    12 ≤ (List.replicate 12 0x0B#8).length ∧ (List.replicate 12 0x0B#8).length - 12 ≤ 4294967295 := by decide

end Sys2Proof.Tests
end

/-! PROOFS of the state family. What an instruction can do to the state, grouped by the parts it writes; the
bytes of a decoded header; what keeps the invariant; then the statements. -/

namespace Sys2Proof.Machine

/-! ### The effects of an instruction -/

/-- The ways an instruction that answers a next state can have changed it, those that write the same parts of
the state under one constructor (R24). `exec_effect` ties it to `exec`. -/
inductive Effect (s : State) : Instr → State → Prop
  /-- `CRC.INIT`, `CRC.WORD` and `CRC.SUM` write `CRC` (R84 to R86). -/
  | crcUnit {i : Instr} (v : Word) (hi : i = .crcInit ∨ (∃ w, i = .crcWord w) ∨ i = .crcSum) :
      Effect s i (s.setCrc v).complete
  /-- `CRC.READ` and the message names tell the host a value (R87, R70). -/
  | told {i : Instr} (r : Reply)
      (hi : i = .crcRead ∨ i = .infoRequest ∨ i = .resetRequest ∨ i = .headerRequest ∨ i = .dataRequest) :
      Effect s i (s.setReply r)
  /-- `MSG.ENCODE` of a payload that fits (R101). -/
  | encoded (ty : Word) (fit : encodable s.mem.inBuf.length = true) :
      Effect s (.msgEncode ty) (((s.setMsg (preambleOf ty s.mem.inBuf)).setOut
        (encodeMessage ty s.mem.inBuf)).setCrc (preambleOf ty s.mem.inBuf).headerCrc).complete
  /-- `MSG.DECODE` raising a fault; `v` is the last checksum computed, or the old `CRC` (R103, R161). -/
  | decodeFault (v : Word) (f : EngineFault) (hf : f = .corruptMessage ∨ f = .truncatedMessage) :
      Effect s .msgDecode ((s.setCrc v).raiseFault f)
  /-- `MSG.DECODE` accepting a message, whose header verified (R103, R157). -/
  | decoded (v : Word) (hlen : 16 ≤ s.mem.inBuf.length)
      (hsum : checksum (slice s.mem.inBuf 0 12) = (preambleFields s.mem.inBuf).headerCrc) :
      Effect s .msgDecode
        (((s.setCrc v).setMsg (preambleFields s.mem.inBuf)).setOut (payloadSlice s.mem.inBuf)).complete
  /-- `HDRREQ.PACK` (R121). -/
  | packed (n c : Word) : Effect s (.hdrreqPack n c) (s.setOut (packHeaderRequest n c)).complete
  /-- `INFO.PARSE` of a payload of the wrong length (R124, R158). -/
  | parseFault : Effect s .infoParse (s.raiseFault .malformedPayload)
  /-- `INFO.PARSE` of a payload of 78 bytes (R124). -/
  | parsed (hlen : s.mem.inBuf.length = infoLength) :
      Effect s .infoParse (s.setInfo (infoFields s.mem.inBuf)).complete

theorem execMsgDecode_effect {s t : State} (h : execMsgDecode s = .next t) : Effect s .msgDecode t := by
  rcases execMsgDecode_next_cases h with
    ⟨_, rfl⟩ | ⟨_, _, rfl⟩ | ⟨_, _, _, rfl⟩ | ⟨_, _, _, _, rfl⟩ | ⟨hlen, hsum, _, _, rfl⟩
  · exact .decodeFault s.crc _ (.inr rfl)
  · exact .decodeFault _ _ (.inl rfl)
  · exact .decodeFault _ _ (.inr rfl)
  · exact .decodeFault _ _ (.inl rfl)
  · exact .decoded _ hlen hsum

theorem exec_effect {i : Instr} {s t : State} (h : exec i s = .next t) : Effect s i t := by
  rcases exec_next_cases h with ⟨rfl, rfl⟩ | ⟨w, rfl, rfl⟩ | ⟨rfl, rfl⟩ | ⟨rfl, rfl⟩ | ⟨ty, rfl, fit, rfl⟩ |
    ⟨rfl, hd⟩ | ⟨n, c, rfl, rfl⟩ | ⟨rfl, _, rfl⟩ | ⟨rfl, hlen, rfl⟩ | ⟨rfl, rfl⟩ | ⟨rfl, rfl⟩ | ⟨rfl, rfl⟩ |
    ⟨rfl, rfl⟩
  · exact .crcUnit _ (by simp)
  · exact .crcUnit _ (by simp)
  · exact .crcUnit _ (by simp)
  · exact .told _ (by simp)
  · exact .encoded ty fit
  · exact execMsgDecode_effect hd
  · exact .packed n c
  · exact .parseFault
  · exact .parsed hlen
  all_goals exact .told _ (by simp)

theorem raiseFault_setStatus (f : EngineFault) (v : BitVec 3) (s : State) :
    (s.setStatus v).raiseFault f = s.raiseFault f := by
  cases f <;> rfl

theorem execInfoParse_setStatus (v : BitVec 3) (s : State) :
    execInfoParse (s.setStatus v) = execInfoParse s := by
  unfold execInfoParse
  rw [State.setStatus_mem]
  cases parseInfo s.mem.inBuf with
  | error f => exact congrArg Host.Outcome.next (raiseFault_setStatus f v s)
  | ok d => rfl

/-- From another `STATUS` an instruction answers the very same outcome, or it only tells the host a value
and leaves `STATUS` alone (R19). -/
theorem exec_setStatus (i : Instr) (v : BitVec 3) (s : State) :
    exec i (s.setStatus v) = exec i s ∨
      ∃ r, exec i s = .next (s.setReply r) ∧ exec i (s.setStatus v) = .next ((s.setStatus v).setReply r) := by
  cases i with
  | crcRead | infoRequest | resetRequest | headerRequest | dataRequest => exact .inr ⟨_, rfl, rfl⟩
  | infoParse => exact .inl (execInfoParse_setStatus v s)
  | crcInit | crcWord | crcSum | msgEncode | msgDecode | hdrreqPack => exact .inl rfl

/-! ### The header bytes of a preamble -/

theorem le32_le32dec {s : List Byte} (h : s.length = 4) : le32 (le32dec s) = s := by
  obtain ⟨b0, b1, b2, b3, rfl⟩ : ∃ b0 b1 b2 b3, s = [b0, b1, b2, b3] := by
    match s, h with
    | [b0, b1, b2, b3], _ => exact ⟨b0, b1, b2, b3, rfl⟩
  simp only [le32, le32dec, List.cons.injEq, and_true]
  refine ⟨?_, ?_, ?_, ?_⟩ <;> ext k hk <;> interval_cases k <;> simp

theorem slice_append_slice (s : List Byte) {i j k : Nat} (hij : i ≤ j) (hjk : j ≤ k) :
    slice s i j ++ slice s j k = slice s i k := by
  have hik : k - i = (j - i) + (k - j) := by omega
  have hj : j = i + (j - i) := by omega
  rw [slice, slice, slice, hik, List.take_add, List.drop_drop, ← hj]

/-- Encoding the fields read from a preamble gives back its first 12 bytes (R56, R102 step 2). -/
theorem headerBytes_preambleFields {s : List Byte} (h : 12 ≤ s.length) :
    headerBytes (preambleFields s).typeId (preambleFields s).length (preambleFields s).payloadCrc =
      slice s 0 12 := by
  have field (i : Nat) (hi : i + 4 ≤ 12) : le32 (le32dec (slice s i (i + 4))) = slice s i (i + 4) :=
    le32_le32dec (by rw [slice_length]; omega)
  rw [headerBytes, preambleFields, field 0 (by omega), field 4 (by omega), field 8 (by omega),
    slice_append_slice s (by omega) (by omega), slice_append_slice s (by omega) (by omega)]

theorem preambleOf_verifies (ty : Word) (p : List Byte) : (preambleOf ty p).Verifies := rfl

theorem preambleFields_verifies {s : List Byte} (hlen : 16 ≤ s.length)
    (hsum : checksum (slice s 0 12) = (preambleFields s).headerCrc) : (preambleFields s).Verifies := by
  rw [MsgRegs.Verifies, headerBytes_preambleFields (by omega), hsum]

/-- An instruction leaves a verified header verified: it keeps the message registers, or writes them from a
header it has just summed (R12, R157). -/
theorem exec_keeps_verified {i : Instr} {s t : State} (hv : s.msg.Verifies) (h : exec i s = .next t) :
    t.msg.Verifies := by
  cases exec_effect h with
  | encoded ty _ => exact preambleOf_verifies ty _
  | decoded _ hlen hsum => exact preambleFields_verifies hlen hsum
  | decodeFault v f _ => rwa [State.raiseFault_msg]
  | crcUnit | told | packed | parseFault | parsed => exact hv

/-! ### The invariant -/

/-- Only `STATUS`, the buffers and the DeviceInfo registers are in the invariant. -/
theorem State.Inv.of_eq {s t : State} (h : s.Inv) (hs : t.status = s.status) (hm : t.mem = s.mem)
    (hi : t.info = s.info) : t.Inv := by
  obtain ⟨hlegal, hdisc, hwf, hver, hname, hsha⟩ := h
  exact ⟨hs ▸ hlegal, hs ▸ hm ▸ hdisc, hm ▸ hwf, hi ▸ hver, hi ▸ hname, hi ▸ hsha⟩

/-- With `STATUS` 0 the invariant is that the buffers are within `BUF_MAX` and the texts have their widths. -/
theorem State.inv_of_status_zero {s : State} (hs : s.status = 0#3) (hwf : s.mem.wf = true)
    (hver : s.info.version.length = 32) (hname : s.info.name.length = 16)
    (hsha : s.info.gitSha.length = 14) : s.Inv :=
  ⟨.inl hs, by simp [hs], hwf, hver, hname, hsha⟩

/-- An operation that completes over the old DeviceInfo registers need only keep the buffers in bounds. -/
theorem State.Inv.complete_of_wf {s t : State} (h : s.Inv) (hi : t.info = s.info) (hwf : t.mem.wf = true) :
    t.complete.Inv :=
  inv_of_status_zero rfl hwf (hi ▸ h.versionWidth) (hi ▸ h.nameWidth) (hi ▸ h.gitShaWidth)

theorem State.Inv.raiseFault {s : State} (f : EngineFault) (h : s.Inv) : (s.raiseFault f).Inv := by
  have hwf := raiseFault_wf f h.memory
  obtain ⟨_, _, _, hver, hname, hsha⟩ := h
  cases f with
  | corruptMessage => exact ⟨.inr (.inl rfl), fun _ => rfl, hwf, hver, hname, hsha⟩
  | truncatedMessage => exact ⟨.inr (.inr (.inl rfl)), fun _ => rfl, hwf, hver, hname, hsha⟩
  | malformedPayload =>
    exact ⟨.inr (.inr (.inr rfl)), fun hs => by simp [faultCode, statusCode] at hs, hwf, hver, hname, hsha⟩

theorem State.Inv.setIn {s : State} {b : List Byte} (h : s.Inv) (hb : Config.fits b.length = true) :
    (s.setIn b).Inv :=
  ⟨h.statusLegal, h.discarded, setIn_wf h.memory hb, h.versionWidth, h.nameWidth, h.gitShaWidth⟩

theorem State.afterReset_inv (m : MsgRegs) {d : DeviceInfo} (reply : Reply) (acts : List HostAction)
    (resets : Nat) (hver : d.version.length = 32) (hname : d.name.length = 16)
    (hsha : d.gitSha.length = 14) : (State.afterReset m d reply acts resets).Inv :=
  inv_of_status_zero rfl ((Memory.wf_iff _).2 ⟨Config.fits_small (by simp [afterReset]),
    Config.fits_small (by simp [afterReset])⟩) hver hname hsha

/-- The free values a reset leaves in the text registers have the registers' widths (R16, R22). -/
theorem unspecifiedInfo_widths (n : Nat) :
    (unspecifiedInfo n).version.length = 32 ∧ (unspecifiedInfo n).name.length = 16 ∧
      (unspecifiedInfo n).gitSha.length = 14 := by
  simp [unspecifiedInfo]

theorem State.hostReset_inv (s : State) : s.hostReset.Inv := by
  obtain ⟨hver, hname, hsha⟩ := unspecifiedInfo_widths s.resets
  exact afterReset_inv _ _ _ _ hver hname hsha

theorem infoFields_widths {s : List Byte} (h : s.length = infoLength) :
    (infoFields s).version.length = 32 ∧ (infoFields s).name.length = 16 ∧
      (infoFields s).gitSha.length = 14 := by
  simp [infoFields, h, infoLength]

/-- The payload a message declares is no longer than the message. -/
theorem payloadSlice_length_le (s : List Byte) : (payloadSlice s).length ≤ s.length := by
  rw [payloadSlice, slice_length]
  omega

theorem exec_keeps_inv {i : Instr} {s t : State} (hs : s.Inv) (h : exec i s = .next t) : t.Inv := by
  have hwf := hs.memory
  cases exec_effect h with
  | crcUnit v _ => exact hs.complete_of_wf rfl hwf
  | told r _ => exact hs.of_eq rfl rfl rfl
  | encoded ty fit =>
    have hout : Config.fits (encodeMessage ty s.mem.inBuf).length = true := by
      rw [encodeMessage_length, Config.fits_iff]
      exact (encodable_iff _).1 fit
    exact hs.complete_of_wf rfl (State.setOut_wf hwf hout)
  | decodeFault v f _ =>
    have hcrc : (s.setCrc v).Inv := hs.of_eq rfl rfl rfl
    exact hcrc.raiseFault f
  | decoded v _ _ =>
    have hout := Config.fits_mono (payloadSlice_length_le s.mem.inBuf) ((Memory.wf_iff _).1 hwf).1
    exact hs.complete_of_wf rfl (State.setOut_wf hwf hout)
  | packed n c => exact hs.complete_of_wf rfl (State.setOut_wf hwf (Config.fits_small (by simp)))
  | parseFault => exact hs.raiseFault .malformedPayload
  | parsed hlen =>
    obtain ⟨hver, hname, hsha⟩ := infoFields_widths hlen
    exact State.inv_of_status_zero rfl hwf hver hname hsha

/-! ### Steps -/

theorem hostAct_actionOf (f : Fetched) (s : State) : hostAct (actionOf f) s = runFetched f s := by
  cases f <;> rfl

/-- A step whose action carries the bits of an instruction runs it (R18). -/
theorem step_fetched {s : State} {f : Fetched} {i : Instr} {rest : List HostAction}
    (hs : s.script = actionOf f :: rest) (hf : decode f = .ok i) : step s = exec i (s.setScript rest) := by
  rw [step_act hs, hostAct_actionOf, runFetched, hf]

theorem step_reset {s : State} {rest : List HostAction} (hs : s.script = .reset :: rest) :
    step s = .next (s.setScript rest).hostReset :=
  step_act hs

theorem readPort_setScript (p : ReadPort) (acts : List HostAction) (s : State) :
    readPort p (s.setScript acts) = readPort p s := by
  cases p <;> rfl

/-! ### The statements -/

/-- Settles O45: nothing, an instruction, a value told, a load that fits and a reset each keep the invariant. -/
theorem stepKeepsTheInvariant : Obligations.StepKeepsTheInvariant := by
  intro s t hs h
  rcases step_next_cases h with ⟨_, rfl⟩ | ⟨act, rest, _, hact⟩
  · exact hs
  · have hs' : (s.setScript rest).Inv := hs.of_eq rfl rfl rfl
    rcases hact with ⟨f, i, _, _, hexec⟩ | ⟨r, rfl⟩ | ⟨b, hb, rfl⟩ | ⟨_, rfl⟩
    · exact exec_keeps_inv hs' hexec
    · exact hs'.of_eq rfl rfl rfl
    · exact hs'.setIn hb
    · exact State.hostReset_inv _

/-- Settles O46: of all a step can do, only instructions and the reset write the message registers. -/
theorem headerStaysVerified : Obligations.HeaderStaysVerified := by
  intro s t hv hnot h
  rcases step_next_cases h with ⟨_, rfl⟩ | ⟨act, rest, hscript, hact⟩
  · exact hv
  · rcases hact with ⟨f, i, _, _, hexec⟩ | ⟨r, rfl⟩ | ⟨b, _, rfl⟩ | ⟨hreset, _⟩
    · exact exec_keeps_verified (s := s.setScript rest) hv hexec
    · exact hv
    · exact hv
    · exact absurd (by rw [hscript, hreset]; rfl) hnot

/-- Settles O11: the second part is the operation's step and then the reset's, which the operation left on
the host's list. -/
theorem resetLeaves : Obligations.ResetLeaves := by
  refine ⟨fun s rest hs => ?_, fun s t f i rest hs hf hexec => ?_⟩
  · obtain ⟨hver, hname, hsha⟩ := unspecifiedInfo_widths s.resets
    exact ⟨_, step_reset hs, rfl, rfl, rfl, hver, hname, hsha, rfl, rfl⟩
  · have first : step s = .next t := (step_fetched hs hf).trans hexec
    have second : step t = .next (t.setScript rest).hostReset := step_reset (exec_next_script hexec)
    have both : run 2 s = .next (t.setScript rest).hostReset := by simp only [run, first, second]
    exact ⟨_, both, rfl, rfl, rfl, rfl, rfl⟩

/-- Settles O38, over the effects of an instruction. -/
theorem onlyNamedWriters : Obligations.OnlyNamedWriters := by
  intro i s t h
  cases exec_effect h with
  | crcUnit v hi => exact ⟨rfl, fun _ => by tauto, by simp, by simp, by simp⟩
  | told | encoded | decodeFault | decoded | packed | parseFault | parsed => simp

/-- Settles O39, over the effects of an instruction. -/
theorem statusAfterOperation : Obligations.StatusAfterOperation := by
  intro i s t h
  cases exec_effect h with
  | crcUnit v hi => rcases hi with rfl | ⟨w, rfl⟩ | rfl <;> simp
  | told r hi => rcases hi with rfl | rfl | rfl | rfl | rfl <;> simp
  | decodeFault v f hf => rcases hf with rfl | rfl <;> simp [faultCode, statusCode]
  | parseFault => simp [faultCode, statusCode]
  | encoded | decoded | packed | parsed => simp

/-- Settles O40: the outcome is the very same, or a value told to the host over an untouched `STATUS`. -/
theorem statusNeverRead : Obligations.StatusNeverRead := by
  intro i s v
  rcases exec_setStatus i v s with same | ⟨r, htold, htold'⟩
  · exact ⟨fun t ht => ⟨t, same.trans ht, rfl, .inl rfl⟩, fun r hr => same.trans hr⟩
  · refine ⟨fun t ht => ?_, fun q hq => ?_⟩
    · obtain rfl : s.setReply r = t := by simpa using htold.symm.trans ht
      exact ⟨_, htold', rfl, .inr ⟨rfl, rfl⟩⟩
    · exact absurd (htold.symm.trans hq) (by simp)

/-- Settles O6. -/
theorem stepRunsDecoded : Obligations.StepRunsDecoded :=
  ⟨fun _ _ _ _ => step_fetched, fun _ => step_idle⟩

/-- Settles O10, port by port. -/
theorem hostReadsHaveNoSideEffect : Obligations.HostReadsHaveNoSideEffect := by
  intro s p rest hs
  have hstep : step s = .next ((s.setScript rest).setReply (readPort p s)) := by
    rw [step_act hs, hostAct, readPort_setScript]
  refine ⟨readPort p s, hstep, ?_⟩
  cases p <;> simp [readPort]

/-- Settles O44. -/
theorem resetMeetsTheInvariant : Obligations.ResetMeetsTheInvariant := by
  refine ⟨?_, _, _, List.length_replicate, List.length_replicate, List.length_replicate, rfl⟩
  rintro acts s ⟨m, d, hver, hname, hsha, rfl⟩
  exact State.afterReset_inv m _ _ _ hver hname hsha

end Sys2Proof.Machine

/-! PROOFS of the table family. A round is linear over exclusive-or, so an entry is; with linearity, pairwise
different top bytes come down to one check of the 256 indices; then the statements. -/

namespace Sys2Proof.Machine

/-! ### Linearity -/

/-- One round adds the polynomial for its own bit 31 only, so where both words add it the two cancel (R30). -/
theorem tableRound_xor (a b : Word) : tableRound (a ^^^ b) = tableRound a ^^^ tableRound b := by
  simp only [tableRound, BitVec.msb_xor, BitVec.shiftLeft_xor_distrib]
  cases a.msb <;> cases b.msb
  case false.false => rfl
  case false.true => exact BitVec.xor_assoc ..
  case true.false =>
    calc (a <<< 1 ^^^ b <<< 1) ^^^ crcPoly
      _ = (a <<< 1 ^^^ crcPoly) ^^^ b <<< 1 := by ac_rfl
  case true.true =>
    calc a <<< 1 ^^^ b <<< 1
      _ = (a <<< 1 ^^^ b <<< 1) ^^^ (crcPoly ^^^ crcPoly) := by rw [BitVec.xor_self, BitVec.xor_zero]
      _ = (a <<< 1 ^^^ crcPoly) ^^^ (b <<< 1 ^^^ crcPoly) := by ac_rfl

/-- Placing the index in the top byte is linear, and each of the eight rounds is (R32). -/
theorem tableEntry_xor (i j : Byte) : tableEntry (i ^^^ j) = tableEntry i ^^^ tableEntry j := by
  simp only [tableEntry, BitVec.setWidth_xor, BitVec.shiftLeft_xor_distrib, tableRound_xor]

/-! ### Top bytes -/

/-- The check of the 256 indices that R32 speaks of. -/
theorem eq_zero_of_tableEntry_topByte_zero :
    ∀ i : Byte, (tableEntry i).extractLsb' 24 8 = 0#8 → i = 0#8 := by
  decide

/-- By linearity the top bytes of two entries differ by the top byte of one entry, which is not 0 (R32). -/
theorem tableEntry_topByte_injective {i j : Byte}
    (h : (tableEntry i).extractLsb' 24 8 = (tableEntry j).extractLsb' 24 8) : i = j := by
  have hzero : (tableEntry (i ^^^ j)).extractLsb' 24 8 = 0#8 := by
    rw [tableEntry_xor, BitVec.extractLsb'_xor, h, BitVec.xor_self]
  exact BitVec.xor_eq_zero_iff.1 (eq_zero_of_tableEntry_topByte_zero _ hzero)

/-! ### The listed entries -/

/-- The list of R31 against the loop of R30, entry by entry. -/
theorem listedTable_eq_ofFn : listedTable = List.ofFn fun i : Fin 256 => tableEntry (.ofFin i) := by
  decide +kernel

/-! ### The statements -/

/-- Settles O13: linearity, and the entries differ because their top bytes do. -/
theorem tableProperties : Obligations.TableProperties := by
  refine ⟨by decide, by decide, tableEntry_xor, fun i j hij => ?_⟩
  have hbyte : (tableEntry i).extractLsb' 24 8 ≠ (tableEntry j).extractLsb' 24 8 :=
    mt tableEntry_topByte_injective hij
  exact ⟨fun h => hbyte (by rw [h]), hbyte⟩

/-- Settles O12, by reading the list of computed entries at the index. -/
theorem tableIsTheListedOne : Obligations.TableIsTheListedOne := by
  unfold Obligations.TableIsTheListedOne
  rw [listedTable_eq_ofFn]
  exact ⟨List.length_ofFn, fun i => List.getElem?_ofFn.trans (dif_pos i.isLt)⟩

end Sys2Proof.Machine

/-! PROOFS of the memory family. The two byte-order functions undo each other; and what an instruction writes is
a function of `CRC` and `IN` alone, from which noninterference and idempotence follow. -/

namespace Sys2Proof.Machine

/-! ### Byte order -/

/-- The four bytes of a word, put back in their lanes, cover its 32 bits (R40). -/
theorem le32dec_le32 (v : Word) : le32dec (le32 v) = v := by
  simp only [le32, le32dec]
  ext k hk
  interval_cases k <;> simp

/-! ### What an instruction writes -/

/-- The values an operation writes, `none` where it leaves a part of the state alone. No instruction writes
`IN`, the host's list or the count of resets, so these have no field. -/
structure Writes where
  crc : Option Word := none
  status : Option (BitVec 3) := none
  msg : Option MsgRegs := none
  info : Option DeviceInfo := none
  outBuf : Option (List Byte) := none
  reply : Option Reply := none

/-- Carry out the writes; the parts with `none` keep what they hold. -/
def Writes.apply (w : Writes) (s : State) : State :=
  { s with
    crc := w.crc.getD s.crc
    status := w.status.getD s.status
    msg := w.msg.getD s.msg
    info := w.info.getD s.info
    mem := ⟨s.mem.inBuf, w.outBuf.getD s.mem.outBuf⟩
    reply := w.reply.getD s.reply }

@[simp] theorem Writes.apply_crc (w : Writes) (s : State) : (w.apply s).crc = w.crc.getD s.crc := rfl
@[simp] theorem Writes.apply_inBuf (w : Writes) (s : State) : (w.apply s).mem.inBuf = s.mem.inBuf := rfl

/-- A value optionally written over two old ones: the same in both, or each old one left alone. -/
theorem getD_eq_or_left {α : Type} (o : Option α) (a a' : α) :
    o.getD a' = o.getD a ∨ (o.getD a = a ∧ o.getD a' = a') := by
  cases o with
  | none => exact .inr ⟨rfl, rfl⟩
  | some v => exact .inl rfl

theorem getD_getD_self {α : Type} (o : Option α) (a : α) : o.getD (o.getD a) = o.getD a := by
  cases o <;> rfl

theorem Writes.apply_apply (w : Writes) (s : State) : w.apply (w.apply s) = w.apply s := by
  simp only [Writes.apply, getD_getD_self]

/-- What `raise Fault(code)` writes (R161). -/
def faultWrites (f : EngineFault) : Writes :=
  match f with
  | .corruptMessage => { status := some (faultCode .corruptMessage), outBuf := some [] }
  | .truncatedMessage => { status := some (faultCode .truncatedMessage), outBuf := some [] }
  | .malformedPayload => { status := some (faultCode .malformedPayload) }

/-- What `MSG.DECODE` writes at each ending of R103. -/
def decodeWrites (r : DecodeResult) : Writes :=
  match r with
  | .tooShort => faultWrites .truncatedMessage
  | .badHeader sum => { faultWrites .corruptMessage with crc := some sum }
  | .tooLong sum => { faultWrites .truncatedMessage with crc := some sum }
  | .badPayload sum => { faultWrites .corruptMessage with crc := some sum }
  | .accepted sum m p => { crc := some sum, status := some 0#3, msg := some m, outBuf := some p }

/-- What an instruction writes, from the values of `CRC` and `IN`; `none` where it is refused.
`exec_eq_writes` ties it to `exec`. -/
def writesOf (i : Instr) (crc : Word) (inBuf : List Byte) : Option Writes :=
  match i with
  | .crcInit => some { crc := some crcInitial, status := some 0#3 }
  | .crcWord w => some { crc := some (foldWord crc w), status := some 0#3 }
  | .crcSum => some { crc := some (checksum inBuf), status := some 0#3 }
  | .crcRead => some { reply := some (.word crc) }
  | .msgEncode ty =>
    if encodable inBuf.length then
      some { crc := some (preambleOf ty inBuf).headerCrc, status := some 0#3,
             msg := some (preambleOf ty inBuf), outBuf := some (encodeMessage ty inBuf) }
    else none
  | .msgDecode => some (decodeWrites (decodeSteps inBuf))
  | .hdrreqPack n c => some { status := some 0#3, outBuf := some (packHeaderRequest n c) }
  | .infoParse =>
    match parseInfo inBuf with
    | .error f => some (faultWrites f)
    | .ok d => some { status := some 0#3, info := some d }
  | .infoRequest => some { reply := some (.messageType .infoRequest) }
  | .resetRequest => some { reply := some (.messageType .resetRequest) }
  | .headerRequest => some { reply := some (.messageType .headerRequest) }
  | .dataRequest => some { reply := some (.messageType .dataRequest) }

theorem raiseFault_eq_writes (f : EngineFault) (s : State) : s.raiseFault f = (faultWrites f).apply s := by
  cases f <;> rfl

theorem execMsgDecode_eq_writes (s : State) :
    execMsgDecode s = .next ((decodeWrites (decodeSteps s.mem.inBuf)).apply s) := by
  unfold execMsgDecode
  cases decodeSteps s.mem.inBuf <;> rfl

/-- Every instruction's meaning is to apply what it writes, or to be refused. -/
theorem exec_eq_writes (i : Instr) (s : State) :
    exec i s = (writesOf i s.crc s.mem.inBuf).elim (.refused .payloadTooLong) fun w => .next (w.apply s) := by
  cases i with
  | msgEncode ty =>
    simp only [exec, execMsgEncode, writesOf]
    split <;> rfl
  | msgDecode => exact execMsgDecode_eq_writes s
  | infoParse =>
    simp only [exec, execInfoParse, writesOf]
    cases parseInfo s.mem.inBuf with
    | error f => exact congrArg Host.Outcome.next (raiseFault_eq_writes f s)
    | ok d => rfl
  | crcInit | crcWord | crcSum | crcRead | hdrreqPack | infoRequest | resetRequest | headerRequest
    | dataRequest => rfl

theorem exec_next_iff_writes {i : Instr} {s t : State} :
    exec i s = .next t ↔ ∃ w, writesOf i s.crc s.mem.inBuf = some w ∧ t = w.apply s := by
  rw [exec_eq_writes]
  cases writesOf i s.crc s.mem.inBuf <;> simp [eq_comm]

/-- Only `CRC.WORD` and `CRC.READ` see `CRC` (R84 to R87). -/
theorem writesOf_of_ne_crcWord {i : Instr} (hword : ∀ w, i ≠ .crcWord w) (hread : i ≠ .crcRead)
    (c c' : Word) (b : List Byte) : writesOf i c b = writesOf i c' b := by
  cases i with
  | crcWord w => exact absurd rfl (hword w)
  | crcRead => exact absurd rfl hread
  | crcInit | crcSum | msgEncode | msgDecode | hdrreqPack | infoParse | infoRequest | resetRequest
    | headerRequest | dataRequest => rfl

/-- An instruction other than `CRC.WORD` writes the same when it is run again: `IN` is still there, and `CRC`
is still there for `CRC.READ`. -/
theorem writesOf_apply {i : Instr} {s : State} {w : Writes} (hword : ∀ v, i ≠ .crcWord v)
    (hw : writesOf i s.crc s.mem.inBuf = some w) :
    writesOf i (w.apply s).crc (w.apply s).mem.inBuf = some w := by
  by_cases hread : i = .crcRead
  · subst hread
    cases hw
    rfl
  · rw [Writes.apply_inBuf, writesOf_of_ne_crcWord hword hread _ s.crc, hw]

/-! ### The statements -/

/-- Settles O5. -/
theorem littleEndianInverse : Obligations.LittleEndianInverse :=
  ⟨fun _ => rfl, le32dec_le32, fun _ => le32_le32dec⟩

/-- Settles O41: both runs apply one and the same `Writes`. -/
theorem operationsSeeOnlyCrcAndInput : Obligations.OperationsSeeOnlyCrcAndInput := by
  intro i s s' t hcrc hin h
  obtain ⟨w, hw, rfl⟩ := exec_next_iff_writes.1 h
  have h' : exec i s' = .next (w.apply s') := exec_next_iff_writes.2 ⟨w, hcrc ▸ hin ▸ hw, rfl⟩
  exact ⟨_, h', by simp [hcrc], hin.symm, getD_eq_or_left _ _ _, getD_eq_or_left _ _ _,
    getD_eq_or_left _ _ _, getD_eq_or_left _ _ _, getD_eq_or_left _ _ _⟩

/-- Settles O42: the second run applies the same `Writes` as the first. -/
theorem repeatingChangesNothing : Obligations.RepeatingChangesNothing := by
  intro i s t hword h
  obtain ⟨w, hw, rfl⟩ := exec_next_iff_writes.1 h
  exact exec_next_iff_writes.2 ⟨w, writesOf_apply hword hw, (w.apply_apply s).symm⟩

end Sys2Proof.Machine

/-! PROOFS of the encoding family. What the decoder makes of a command word, selector by selector; from there the
round trip, and the step that issues an encoded instruction; then the message shorthands, action by action. -/

namespace Sys2Proof.Machine

/-! ### The decoder of command words -/

/-- Settles O2: the three fields of a command word are the triple it was made of, so each selector leads to its
row of the table. -/
theorem selectorTable : Obligations.SelectorTable := by
  intro a b
  simp [decode, decodeCommand, commandSel_commandWord, commandA_commandWord, commandB_commandWord]

/-- Past the last row of the table no operation is selected (R67). -/
theorem decodeCommand_reserved {cmd : BitVec 72} (h : 8 ≤ (commandSel cmd).toNat) :
    decodeCommand cmd = .error (.reservedSelector (commandSel cmd)) := by
  unfold decodeCommand
  split
  case h_9 => rfl
  all_goals omega

/-! ### The round trip, and the steps it gives -/

/-- Settles O1: an operation is its selector's row at its own operands, and a message name is its `type_id`. -/
theorem decodeInvertsEncode : Obligations.DecodeInvertsEncode := by
  intro i
  have table : ∀ a b : Word, _ := fun a b => selectorTable a b
  cases i with
  | crcInit | crcWord | crcSum | crcRead | msgEncode | msgDecode | hdrreqPack | infoParse =>
    simp only [encode, table]
  | infoRequest | resetRequest | headerRequest | dataRequest => rfl

/-- The action that issues or names an instruction runs it. -/
theorem step_actionOfInstr {s : State} {i : Instr} {rest : List HostAction}
    (hs : s.script = actionOfInstr i :: rest) : step s = exec i (s.setScript rest) :=
  step_fetched hs (decodeInvertsEncode i)

theorem step_loadIn {s : State} {b : List Byte} {rest : List HostAction}
    (hs : s.script = .loadIn b :: rest) (hb : Config.fits b.length = true) :
    step s = .next ((s.setScript rest).setIn b) := by
  rw [step_act hs, hostAct, loadInput, if_pos hb]

theorem step_copyOut {s : State} {rest : List HostAction}
    (hs : s.script = .copyOut :: rest) (hout : Config.fits s.mem.outBuf.length = true) :
    step s = .next ((s.setScript rest).setIn s.mem.outBuf) := by
  rw [step_act hs, hostAct, State.setScript_mem, loadInput, if_pos hout]

/-! ### Message shorthands -/

/-- `n` steps from `s` end, without a refusal, with the message `m` in `OUT`, `STATUS` 0 and the actions `rest`
still to come. -/
def LeavesMessage (n : Nat) (s : State) (m : List Byte) (rest : List HostAction) : Prop :=
  ∃ t, run n s = .next t ∧ t.mem.outBuf = m ∧ t.status = 0#3 ∧ t.script = rest

theorem LeavesMessage.of_step {n : Nat} {s t : State} {m : List Byte} {rest : List HostAction}
    (hstep : step s = .next t) (ht : LeavesMessage n t m rest) : LeavesMessage (n + 1) s m rest := by
  simpa only [LeavesMessage, run, hstep] using ht

/-- The message of a payload of at most 4096 bytes fits every buffer (R5). -/
theorem messageFits_of_small {n : Nat} (h : n ≤ 4096) : 16 + n ≤ Config.bufMax := by
  have := Config.bufMax_bounds.1
  omega

/-- The last action of every shorthand: `MSG.ENCODE` of the payload in `IN` (R101). -/
theorem leavesMessage_encode {s : State} {ty : Word} {rest : List HostAction}
    (hs : s.script = actionOfInstr (.msgEncode ty) :: rest) (hfit : 16 + s.mem.inBuf.length ≤ Config.bufMax) :
    LeavesMessage 1 s (encodeMessage ty s.mem.inBuf) rest := by
  have hexec := (step_actionOfInstr hs).trans (if_pos ((encodable_iff _).2 hfit))
  exact .of_step hexec ⟨_, rfl, rfl, rfl, rfl⟩

/-- A load followed by `MSG.ENCODE`, the form of three of the shorthands (R69). -/
theorem leavesMessage_load_encode {s : State} {ty : Word} {p : List Byte} {rest : List HostAction}
    (hs : s.script = .loadIn p :: actionOfInstr (.msgEncode ty) :: rest)
    (hfit : 16 + p.length ≤ Config.bufMax) : LeavesMessage 2 s (encodeMessage ty p) rest := by
  have hload := step_loadIn hs ((Config.fits_iff _).2 (by omega))
  exact .of_step hload (leavesMessage_encode rfl hfit)

/-- `HDRREQ.PACK`, `IN <- OUT`, `MSG.ENCODE`: the 12 bytes of the payload fit every buffer (R69, R121). -/
theorem leavesMessage_hdrReq {s : State} {n c : Word} {rest : List HostAction}
    (hs : s.script = pseudoHdrReq n c ++ rest) :
    LeavesMessage 3 s (encodeMessage 2#32 (packHeaderRequest n c)) rest := by
  have hin : Config.fits (packHeaderRequest n c).length = true := Config.fits_small (by simp)
  have hout : 16 + (packHeaderRequest n c).length ≤ Config.bufMax := messageFits_of_small (by simp)
  exact .of_step (step_actionOfInstr hs) (.of_step (step_copyOut rfl hin) (leavesMessage_encode rfl hout))

/-! ### The statements -/

/-- Settles O37: an empty payload fits every buffer, and the page is taken to fit. -/
theorem pseudoMessages : Obligations.PseudoMessages := by
  intro s rest
  have hempty : 16 + ([] : List Byte).length ≤ Config.bufMax := messageFits_of_small (by simp)
  exact ⟨leavesMessage_load_encode rfl hempty, leavesMessage_load_encode rfl hempty,
    fun _ _ => leavesMessage_hdrReq rfl, fun _ => leavesMessage_load_encode rfl⟩

/-- Settles O3: such a command is left undecoded, which the step answers with the refusal. -/
theorem reservedSelectorsRefused : Obligations.ReservedSelectorsRefused := by
  intro s cmd rest hs hsel
  simp only [step_act hs, hostAct, runFetched, decode, decodeCommand_reserved hsel, undecoded]

/-- Settles O4, on the words as they are written out. -/
theorem specWordsDecode : Obligations.SpecWordsDecode := by
  unfold Obligations.SpecWordsDecode
  decide

/-- Settles O8. -/
theorem messageNamesComplete : Obligations.MessageNamesComplete :=
  fun _ => ⟨rfl, rfl, rfl, rfl⟩

end Sys2Proof.Machine

/-! PROOFS of the CRC family. Grouping and packing fold the padded bytes one by one; folding a byte is eight
rounds, which are the eight bit-serial steps; folding is linear and can be undone; then the stream of `CRC.WORD`s. -/

namespace Sys2Proof.Machine

/-! ### Grouping -/

theorem groups_flatMap_bytes (b : List Byte) : (groups b).flatMap Group.bytes = b := by
  induction b using groups.induct with
  | case1 | case2 | case3 | case4 => rfl
  | case5 b0 b1 b2 b3 rest ih => simp [Group.bytes, ih]

theorem groups_length (b : List Byte) : (groups b).length = (b.length + 3) / 4 := by
  induction b using groups.induct with
  | case1 | case2 | case3 | case4 => simp [groups]
  | case5 b0 b1 b2 b3 rest ih =>
    simp only [groups_four, List.length_cons, ih]
    omega

theorem groups_dropLast_full (b : List Byte) : ∀ g ∈ (groups b).dropLast, g.bytes.length = 4 := by
  induction b using groups.induct with
  | case1 | case2 | case3 | case4 => simp [groups]
  | case5 b0 b1 b2 b3 rest ih =>
    rw [groups_four]
    cases hgs : groups rest with
    | nil => simp
    | cons g gs =>
      rw [hgs] at ih
      rw [List.dropLast_cons_cons, List.forall_mem_cons]
      exact ⟨rfl, ih⟩

/-! ### Padding -/

theorem pad4_four (b0 b1 b2 b3 : Byte) (rest : List Byte) :
    pad4 (b0 :: b1 :: b2 :: b3 :: rest) = b0 :: b1 :: b2 :: b3 :: pad4 rest := by
  have hlen : (b0 :: b1 :: b2 :: b3 :: rest).length % 4 = rest.length % 4 :=
    Nat.add_mod_right rest.length 4
  rw [pad4, hlen]
  rfl

/-- Zero bytes within the last group are bytes that padding would have added (R93). -/
theorem pad4_append_zeros {b : List Byte} {k : Nat} (hb : b.length % 4 ≠ 0) (hk : k ≤ 4 - b.length % 4) :
    pad4 (b ++ List.replicate k 0#8) = pad4 b := by
  have hcount : k + (4 - (b.length + k) % 4) % 4 = (4 - b.length % 4) % 4 := by omega
  rw [pad4, List.length_append, List.length_replicate, List.append_assoc, List.replicate_append_replicate,
    hcount, pad4]

theorem pad4_pad4 (b : List Byte) : pad4 (pad4 b) = pad4 b := by
  have hfull : (pad4 b).length % 4 = 0 := by
    simp only [pad4, List.length_append, List.length_replicate]
    omega
  rw [pad4, hfull]
  exact List.append_nil _

/-- Padding depends on the length alone, so it commutes with a bytewise combination of two inputs. -/
theorem pad4_zipWith_xor {x y : List Byte} (h : x.length = y.length) :
    pad4 (List.zipWith (· ^^^ ·) x y) = List.zipWith (· ^^^ ·) (pad4 x) (pad4 y) := by
  simp [pad4, h, List.zipWith_append h]

/-! ### The byte-wise form -/

theorem foldBytes_append (reg : Word) (a b : List Byte) :
    foldBytes reg (a ++ b) = foldBytes (foldBytes reg a) b :=
  List.foldl_append

/-- The groups, packed and folded word by word, fold the bytes of the padded input (R90 a, b). -/
theorem foldGroups_groups (reg : Word) (b : List Byte) : foldGroups reg (groups b) = foldBytes reg (pad4 b) := by
  induction b using groups.induct generalizing reg with
  | case1 => rfl
  | case2 b0 => exact foldWord_be32dec reg b0 0#8 0#8 0#8
  | case3 b0 b1 => exact foldWord_be32dec reg b0 b1 0#8 0#8
  | case4 b0 b1 b2 => exact foldWord_be32dec reg b0 b1 b2 0#8
  | case5 b0 b1 b2 b3 rest ih =>
    rw [groups_four, foldGroups_cons, ih, packGroup, foldWord_be32dec, pad4_four, ← foldBytes_append]
    rfl

theorem checksum_eq_foldBytes (b : List Byte) : checksum b = foldBytes crcInitial (pad4 b) :=
  foldGroups_groups crcInitial b

/-! ### The bit-serial form -/

/-- The top `n` bits of a word, bit 31 first. `topBits_byte` ties it to `byteBits`. -/
def topBits : Nat → Word → List Bool
  | 0, _ => []
  | n + 1, w => w.msb :: topBits n (w <<< 1)

theorem topBits_byte : ∀ y : Byte, topBits 8 (y.setWidth 32 <<< 24) = byteBits y := by decide

theorem bitStep_false (reg : Word) : bitStep reg false = tableRound reg := by
  rw [bitStep, Bool.xor_false, tableRound]

/-- A word added to the register acts through its top bit only, as an input bit; its other bits move up (R90 c). -/
theorem tableRound_xor_eq_bitStep (reg w : Word) : tableRound (reg ^^^ w) = bitStep reg w.msb ^^^ w <<< 1 := by
  simp only [tableRound, bitStep, BitVec.msb_xor, BitVec.shiftLeft_xor_distrib]
  split
  · ac_rfl
  · rfl

/-- `n` rounds over register and added word are `n` bit-serial steps that take in the word's top bits. -/
theorem tableRound_iterate_xor (n : Nat) (reg w : Word) :
    tableRound^[n] (reg ^^^ w) = (topBits n w).foldl bitStep reg ^^^ w <<< n := by
  induction n generalizing reg w with
  | zero => simp [topBits]
  | succ n ih =>
    rw [Function.iterate_succ_apply, tableRound_xor_eq_bitStep, ih, ← BitVec.shiftLeft_add, Nat.add_comm 1 n]
    rfl

/-- The eight bit-serial steps of a byte are eight rounds with the byte in the register's top byte. -/
theorem byteBits_foldl_eq_rounds (reg : Word) (y : Byte) :
    (byteBits y).foldl bitStep reg = tableRound^[8] (reg ^^^ y.setWidth 32 <<< 24) := by
  have hout : y.setWidth 32 <<< 24 <<< 8 = 0#32 := by
    rw [← BitVec.shiftLeft_add]
    exact BitVec.shiftLeft_eq_zero (by omega)
  rw [tableRound_iterate_xor, hout, BitVec.xor_zero, topBits_byte]

/-- The register is its top byte in place, and the other bits. -/
theorem topByte_xor_lowBits (reg : Word) :
    ((reg >>> 24).setWidth 8).setWidth 32 <<< 24 ^^^ (reg <<< 8 >>> 8) = reg := by
  ext k hk
  interval_cases k <;> simp

theorem topBits_lowBits (reg : Word) : topBits 8 (reg <<< 8 >>> 8) = List.replicate 8 false := by
  simp [topBits, BitVec.msb_eq_getLsbD_last, List.replicate_succ]

theorem lowBits_shiftLeft (reg : Word) : reg <<< 8 >>> 8 <<< 8 = reg <<< 8 := by
  ext k hk
  have hk' : 8 + (k - 8) < 32 := by omega
  simp [hk']

/-- A byte added to the top of the register meets the top byte and leaves the other bits. -/
theorem xor_byte_eq_index_xor_lowBits (reg : Word) (y : Byte) :
    reg ^^^ y.setWidth 32 <<< 24 =
      ((reg >>> 24).setWidth 8 ^^^ y).setWidth 32 <<< 24 ^^^ (reg <<< 8 >>> 8) := by
  rw [BitVec.setWidth_xor, BitVec.shiftLeft_xor_distrib, BitVec.xor_assoc,
    BitVec.xor_comm (y.setWidth 32 <<< 24), ← BitVec.xor_assoc, topByte_xor_lowBits]

/-- Folding a byte: the register's low bits move up untouched, and the rounds act on the top byte with the input
byte added, which is what the table holds (R80, R30, R90 c). -/
theorem foldByte_eq_bitSteps (reg : Word) (y : Byte) : foldByte reg y = (byteBits y).foldl bitStep reg := by
  rw [byteBits_foldl_eq_rounds, xor_byte_eq_index_xor_lowBits, tableRound_iterate_xor, topBits_lowBits,
    lowBits_shiftLeft, foldByte, BitVec.xor_comm]
  simp only [List.replicate_succ, List.replicate_zero, List.foldl_cons, List.foldl_nil, bitStep_false, tableEntry]

theorem bitSerial_eq_foldBytes (reg : Word) (b : List Byte) : bitSerial reg b = foldBytes reg b := by
  simp only [bitSerial, foldBytes, ← foldByte_eq_bitSteps]

/-! ### Linearity -/

/-- Folding a byte is linear in the register and the byte together, as the table is (R32). -/
theorem foldByte_xor (r r' : Word) (x y : Byte) :
    foldByte (r ^^^ r') (x ^^^ y) = foldByte r x ^^^ foldByte r' y := by
  simp only [foldByte, BitVec.shiftLeft_xor_distrib, BitVec.ushiftRight_xor_distrib, BitVec.setWidth_xor,
    tableEntry_xor]
  ac_rfl

theorem foldBytes_zipWith_xor {x y : List Byte} (h : x.length = y.length) (r r' : Word) :
    foldBytes (r ^^^ r') (List.zipWith (· ^^^ ·) x y) = foldBytes r x ^^^ foldBytes r' y := by
  induction x generalizing y r r' with
  | nil =>
    obtain rfl := List.eq_nil_of_length_eq_zero h.symm
    rfl
  | cons a x ih =>
    cases y with
    | nil => cases h
    | cons b y =>
      rw [List.zipWith_cons_cons, foldBytes_cons, foldByte_xor]
      exact ih (Nat.succ.inj h) _ _

/-- The two initial values cancel, so the difference is folded from register 0 (R94). -/
theorem checksum_xor_checksum {x y : List Byte} (h : x.length = y.length) :
    checksum x ^^^ checksum y = foldBytes 0#32 (pad4 (List.zipWith (· ^^^ ·) x y)) := by
  have hpad : (pad4 x).length = (pad4 y).length := by simp [pad4, h]
  rw [checksum_eq_foldBytes, checksum_eq_foldBytes, ← foldBytes_zipWith_xor hpad, BitVec.xor_self,
    pad4_zipWith_xor h]

/-! ### Folding can be undone -/

theorem tableEntry_zero : tableEntry 0#8 = 0#32 := rfl

/-- The check of the 256 indices: the polynomial has bit 0 set, so no entry but the first has low byte 0 (R30). -/
theorem eq_zero_of_tableEntry_lowByte_zero :
    ∀ i : Byte, (tableEntry i).extractLsb' 0 8 = 0#8 → i = 0#8 := by
  decide

/-- Only the table reaches the low byte of the result, so a result 0 tells that the index was 0; with it the top
byte of the register was 0, and the shift has kept the rest. -/
theorem eq_zero_of_foldByte_zero {r : Word} (h : foldByte r 0#8 = 0#32) : r = 0#32 := by
  have hshift : (r <<< 8).extractLsb' 0 8 = 0#8 := by
    ext k hk
    simp [hk]
  rw [foldByte, BitVec.xor_zero] at h
  have hlow := congrArg (BitVec.extractLsb' 0 8) h
  rw [BitVec.extractLsb'_xor, hshift, BitVec.zero_xor] at hlow
  have htop : (r >>> 24).setWidth 8 = 0#8 := eq_zero_of_tableEntry_lowByte_zero _ hlow
  have hrest : r <<< 8 = 0#32 := by rwa [htop, tableEntry_zero, BitVec.xor_zero] at h
  rw [← topByte_xor_lowBits r, htop, hrest]
  rfl

theorem foldByte_reg_injective {r r' : Word} {y : Byte} (h : foldByte r y = foldByte r' y) : r = r' := by
  have hzero : foldByte (r ^^^ r') 0#8 = 0#32 := by
    rw [← BitVec.xor_self (x := y), foldByte_xor, h, BitVec.xor_self]
  exact BitVec.xor_eq_zero_iff.1 (eq_zero_of_foldByte_zero hzero)

theorem foldByte_byte_injective {r : Word} {x y : Byte} (h : foldByte r x = foldByte r y) : x = y := by
  have hentry := (BitVec.xor_right_inj _).1 h
  have hindex := tableEntry_topByte_injective (congrArg (BitVec.extractLsb' 24 8) hentry)
  exact (BitVec.xor_right_inj _).1 hindex

theorem foldBytes_reg_injective {b : List Byte} {r r' : Word} (h : foldBytes r b = foldBytes r' b) : r = r' := by
  induction b generalizing r r' with
  | nil => exact h
  | cons y b ih => exact foldByte_reg_injective (ih h)

/-- A flipped bit is a change of the one byte it stands in. -/
theorem flipBit_eq_take_cons_drop {x : List Byte} {k : Nat} (hk : k < x.length) (j : Nat) :
    flipBit x k j = x.take k ++ (x[k] ^^^ 1#8 <<< j) :: x.drop (k + 1) :=
  List.modify_eq_take_cons_drop hk

theorem xor_bit_ne_self (y : Byte) {j : Nat} (hj : j < 8) : y ^^^ 1#8 <<< j ≠ y := by
  have hmask : 1#8 <<< j ≠ 0#8 := by
    interval_cases j <;> decide
  exact fun h => hmask (by simpa using h)

/-! ### `CRC.WORD` by `CRC.WORD` -/

theorem run_succ_of_step {n : Nat} {s t : State} (h : step s = .next t) : run (n + 1) s = run n t := by
  rw [run, h]

/-- The steps of one `CRC.WORD` for each group fold the groups into `CRC` (R85, R91). -/
theorem run_crcWords (gs : List Group) (s : State) (rest : List HostAction) :
    run gs.length { s with
        status := 0#3, script := (gs.map fun g => actionOfInstr (.crcWord (packGroup g))) ++ rest } =
      .next { s with crc := foldGroups s.crc gs, status := 0#3, script := rest } := by
  induction gs generalizing s with
  | nil => rfl
  | cons g gs ih =>
    rw [List.length_cons, run_succ_of_step (step_actionOfInstr (i := .crcWord (packGroup g)) rfl)]
    exact ih { s with crc := foldWord s.crc (packGroup g) }

/-! ### The statements -/

/-- Settles O14. -/
theorem groupsCoverTheInput : Obligations.GroupsCoverTheInput :=
  fun b => ⟨groups_flatMap_bytes b, groups_length b, groups_dropLast_full b⟩

/-- Settles O15: each form is the byte-wise one over the padded input. -/
theorem checksumForms : Obligations.ChecksumForms := by
  intro b
  refine ⟨?_, checksum_eq_foldBytes b, ?_⟩
  · rw [checksum_eq_foldBytes, checksum_eq_foldBytes, pad4_pad4]
  · exact (checksum_eq_foldBytes b).trans (bitSerial_eq_foldBytes _ _).symm

/-- Settles O16: the padded inputs are the same. -/
theorem paddingAliases : Obligations.PaddingAliases := by
  intro b k hb hk
  rw [checksum_eq_foldBytes, checksum_eq_foldBytes, pad4_append_zeros hb hk]

/-- Settles O18: the changed byte makes the registers differ, and the equal bytes after it keep them so. -/
theorem checksumDetectsByteChanges : Obligations.ChecksumDetectsByteChanges := by
  intro front back x y hxy h
  simp only [checksum_eq_foldBytes, pad4, List.append_assoc, List.cons_append, List.length_append,
    List.length_cons, foldBytes_append _ front, foldBytes_cons] at h
  exact hxy (foldByte_byte_injective (foldBytes_reg_injective h))

/-- Settles O17: the difference by linearity; a flipped bit is a changed byte. -/
theorem checksumDetectsSingleBits : Obligations.ChecksumDetectsSingleBits := by
  refine ⟨fun x y h => ?_, fun x k j hk hj => ?_⟩
  · rw [bitSerial_eq_foldBytes, checksum_xor_checksum h]
  · have hx : x = x.take k ++ x[k] :: x.drop (k + 1) := by simp
    rw [flipBit_eq_take_cons_drop hk]
    conv => rhs; rw [hx]
    exact checksumDetectsByteChanges _ _ _ _ (xor_bit_ne_self _ hj)

/-- Settles O23: the first step sets `CRC` to the initial value, the others fold the groups; `CRC.SUM` folds the
same groups out of `IN`. -/
theorem streamEqualsSum : Obligations.StreamEqualsSum := by
  intro s b rest
  refine ⟨?_, fun hfit => ?_⟩
  · rw [Nat.add_comm, run_succ_of_step (step_actionOfInstr (i := .crcInit) rfl)]
    exact run_crcWords (groups b) { s with crc := crcInitial } rest
  · rw [run_succ_of_step (step_loadIn rfl ((Config.fits_iff _).2 hfit)),
      run_succ_of_step (step_actionOfInstr (i := .crcSum) rfl)]
    rfl

/-- Settles O24, over the effects of an instruction; no instruction belongs to both groups. -/
theorem crcUnitFrame : Obligations.CrcUnitFrame := by
  intro i s t h
  cases exec_effect h with
  | crcUnit v hi =>
    refine ⟨fun _ => ⟨rfl, rfl, rfl, rfl, rfl, fun _ _ => rfl⟩, fun hi' => ?_⟩
    rcases hi with rfl | ⟨w, rfl⟩ | rfl <;> simp at hi'
  | told r hi =>
    refine ⟨fun hi' => ?_, fun _ => ⟨rfl, rfl, rfl, rfl, rfl, rfl, fun _ _ => rfl⟩⟩
    rcases hi with rfl | rfl | rfl | rfl | rfl <;> simp at hi'
  | encoded | decodeFault | decoded | packed | parseFault | parsed => simp

/-- Settles O19. -/
theorem crcInitResult : Obligations.CrcInitResult := by
  intro s a b
  obtain ⟨hdec, _⟩ := selectorTable a b
  exact ⟨hdec, rfl⟩

/-- Settles O20; the corner cases of R85 are closed folds. -/
theorem crcWordResult : Obligations.CrcWordResult := by
  refine ⟨fun s w b => ?_, by decide, by decide, by decide, by decide⟩
  obtain ⟨_, hdec, _⟩ := selectorTable w b
  exact ⟨hdec, rfl⟩

/-- Settles O21. -/
theorem crcSumResult : Obligations.CrcSumResult := by
  intro s a b
  obtain ⟨_, _, hdec, _⟩ := selectorTable a b
  refine ⟨hdec, rfl, fun h => ?_, fun h => ?_⟩ <;> rw [h]
  · rfl
  · decide

/-- Settles O22. -/
theorem crcReadResult : Obligations.CrcReadResult := by
  intro s a b
  obtain ⟨_, _, _, hdec, _⟩ := selectorTable a b
  exact ⟨hdec, rfl⟩

end Sys2Proof.Machine

/-! PROOFS of the codec family. The bytes of a slice, after a cut and after a flipped bit; what the fields of an
encoded message read as; the five endings of decode, each from the tests that lead to it; then the statements. -/

namespace Sys2Proof.Machine

/-! ### Slices -/

theorem slice_getElem? (s : List Byte) (i j n : Nat) :
    (slice s i j)[n]? = if n < j - i then s[i + n]? else none := by
  rw [slice, List.getElem?_take, List.getElem?_drop]

/-- A slice within the first `n` bytes does not see what is cut off behind them. -/
theorem slice_slice_zero (s : List Byte) {i j n : Nat} (hj : j ≤ n) : slice (slice s 0 n) i j = slice s i j := by
  refine List.ext_getElem? fun m => ?_
  simp only [slice_getElem?, Nat.zero_add, Nat.sub_zero]
  split
  · rw [if_pos (by omega)]
  · rfl

theorem flipBit_getElem? (s : List Byte) (k j n : Nat) :
    (flipBit s k j)[n]? = if k = n then s[n]?.map (· ^^^ 1#8 <<< j) else s[n]? := by
  rw [flipBit, List.getElem?_modify]
  split <;> simp

theorem flipBit_length (s : List Byte) (k j : Nat) : (flipBit s k j).length = s.length :=
  List.length_modify ..

/-- A flipped bit that stands outside the slice is not seen in it. -/
theorem slice_flipBit_outside (s : List Byte) {k a b : Nat} (j : Nat) (h : k < a ∨ b ≤ k) :
    slice (flipBit s k j) a b = slice s a b := by
  refine List.ext_getElem? fun n => ?_
  simp only [slice_getElem?, flipBit_getElem?]
  split
  · rw [if_neg (by omega)]
  · rfl

theorem slice_flipBit_of_le (s : List Byte) {k a : Nat} (b j : Nat) (ha : a ≤ k) :
    slice (flipBit s k j) a b = flipBit (slice s a b) (k - a) j := by
  refine List.ext_getElem? fun n => ?_
  have hiff : k = a + n ↔ k - a = n := by omega
  simp only [slice_getElem?, flipBit_getElem?, hiff]
  split <;> simp

/-! ### Flipped bits are seen -/

theorem checksum_flipBit_ne {s : List Byte} {k j : Nat} (hk : k < s.length) (hj : j < 8) :
    checksum (flipBit s k j) ≠ checksum s :=
  checksumDetectsSingleBits.2 s k j hk hj

/-- A word whose little-endian bytes have a flipped bit is another word. -/
theorem le32dec_flipBit_le32_ne (v : Word) {k j : Nat} (hk : k < 4) (hj : j < 8) :
    le32dec (flipBit (le32 v) k j) ≠ v := by
  intro h
  have hbytes : flipBit (le32 v) k j = le32 v := by
    rw [← le32_le32dec (flipBit_length (le32 v) k j), h]
  exact checksum_flipBit_ne (s := le32 v) hk hj (congrArg checksum hbytes)

/-! ### The fields of an encoded message -/

theorem slice_encodeMessage_header (t : Word) (p : List Byte) :
    slice (encodeMessage t p) 0 12 = headerBytes t (lengthField p.length) (checksum p) := rfl

theorem slice_encodeMessage_typeId (t : Word) (p : List Byte) : slice (encodeMessage t p) 0 4 = le32 t := rfl

theorem slice_encodeMessage_length (t : Word) (p : List Byte) :
    slice (encodeMessage t p) 4 8 = le32 (lengthField p.length) := rfl

theorem slice_encodeMessage_payloadCrc (t : Word) (p : List Byte) :
    slice (encodeMessage t p) 8 12 = le32 (checksum p) := rfl

theorem slice_encodeMessage_headerCrc (t : Word) (p : List Byte) :
    slice (encodeMessage t p) 12 16 = le32 (preambleOf t p).headerCrc := rfl

theorem drop_encodeMessage (t : Word) (p : List Byte) : (encodeMessage t p).drop 16 = p := rfl

/-- Reading the preamble of an encoded message gives back the fields it was built with (R105). -/
theorem preambleFields_encodeMessage (t : Word) (p : List Byte) :
    preambleFields (encodeMessage t p) = preambleOf t p := by
  simp only [preambleFields, slice_encodeMessage_typeId, slice_encodeMessage_length,
    slice_encodeMessage_payloadCrc, slice_encodeMessage_headerCrc, le32dec_le32]
  rfl

theorem checksum_header_encodeMessage (t : Word) (p : List Byte) :
    checksum (slice (encodeMessage t p) 0 12) = (preambleOf t p).headerCrc := rfl

/-- The payload of an encoded message is all that follows its preamble. -/
theorem slice_encodeMessage_payload (t : Word) (p : List Byte) :
    slice (encodeMessage t p) 16 (16 + p.length) = p := by
  rw [slice, drop_encodeMessage, Nat.add_sub_cancel_left, List.take_length]

/-! ### The endings of decode -/

theorem decodeSteps_tooShort {s : List Byte} (hlen : s.length < 16) : decodeSteps s = .tooShort :=
  if_pos hlen

theorem decodeSteps_badHeader {s : List Byte} (hlen : 16 ≤ s.length)
    (hsum : checksum (slice s 0 12) ≠ (preambleFields s).headerCrc) :
    decodeSteps s = .badHeader (checksum (slice s 0 12)) := by
  rw [decodeSteps, if_neg (by omega), if_pos hsum]

theorem decodeSteps_tooLong {s : List Byte} (hlen : 16 ≤ s.length)
    (hsum : checksum (slice s 0 12) = (preambleFields s).headerCrc)
    (hlong : s.length - 16 < (preambleFields s).length.toNat) :
    decodeSteps s = .tooLong (checksum (slice s 0 12)) := by
  rw [decodeSteps, if_neg (by omega), if_neg (not_not.2 hsum), if_pos hlong]

theorem decodeSteps_badPayload {s : List Byte} (hlen : 16 ≤ s.length)
    (hsum : checksum (slice s 0 12) = (preambleFields s).headerCrc)
    (hfit : (preambleFields s).length.toNat ≤ s.length - 16)
    (hpay : checksum (payloadSlice s) ≠ (preambleFields s).payloadCrc) :
    decodeSteps s = .badPayload (checksum (payloadSlice s)) := by
  rw [decodeSteps, if_neg (by omega), if_neg (not_not.2 hsum), if_neg (by omega), if_pos hpay]

theorem decodeSteps_accepted {s : List Byte} (hlen : 16 ≤ s.length)
    (hsum : checksum (slice s 0 12) = (preambleFields s).headerCrc)
    (hfit : (preambleFields s).length.toNat ≤ s.length - 16)
    (hpay : checksum (payloadSlice s) = (preambleFields s).payloadCrc) :
    decodeSteps s = .accepted (checksum (payloadSlice s)) (preambleFields s) (payloadSlice s) := by
  rw [decodeSteps, if_neg (by omega), if_neg (not_not.2 hsum), if_neg (by omega), if_neg (not_not.2 hpay)]

theorem decodeMessage_congr {s s' : List Byte} (h : decodeSteps s = decodeSteps s') :
    decodeMessage s = decodeMessage s' := by
  rw [decodeMessage, h, decodeMessage]

/-- `MSG.DECODE` carries out the writes of the ending that `decodeSteps` comes to (R103). -/
theorem exec_msgDecode {s : State} {r : DecodeResult} (h : decodeSteps s.mem.inBuf = r) :
    exec .msgDecode s = .next ((decodeWrites r).apply s) :=
  h ▸ execMsgDecode_eq_writes s

/-! ### The round trip -/

/-- Every check of decode passes on an encoded message (R105). -/
theorem decodeSteps_encodeMessage {t : Word} {p : List Byte} (hp : p.length ≤ 4294967295) :
    decodeSteps (encodeMessage t p) = .accepted (checksum p) (preambleOf t p) p := by
  have hfields := preambleFields_encodeMessage t p
  have hlength : (preambleFields (encodeMessage t p)).length.toNat = p.length := by
    rw [hfields, preambleOf, lengthField_toNat hp]
  have hpay : payloadSlice (encodeMessage t p) = p := by
    rw [payloadSlice, hlength, slice_encodeMessage_payload]
  have hacc := decodeSteps_accepted (s := encodeMessage t p) (by simp)
    (by rw [hfields, checksum_header_encodeMessage]) (by simp [hlength]) (by rw [hfields, hpay, preambleOf])
  rwa [hfields, hpay] at hacc

/-! ### A flipped bit in an encoded message -/

/-- A flipped header bit changes the checksum over the header; a flipped bit of the header checksum changes
what that is compared with (R106). -/
theorem decodeSteps_flipBit_preamble (t : Word) (p : List Byte) {k j : Nat} (hk : k < 16) (hj : j < 8) :
    ∃ sum, decodeSteps (flipBit (encodeMessage t p) k j) = .badHeader sum := by
  refine ⟨_, decodeSteps_badHeader (by simp [flipBit_length]) ?_⟩
  change checksum (slice (flipBit _ k j) 0 12) ≠ le32dec (slice (flipBit _ k j) 12 16)
  by_cases hheader : k < 12
  · rw [slice_flipBit_of_le _ _ j (Nat.zero_le k), slice_flipBit_outside _ j (.inl hheader),
      slice_encodeMessage_headerCrc, le32dec_le32, ← checksum_header_encodeMessage]
    exact checksum_flipBit_ne (by simpa [slice_encodeMessage_header] using hheader) hj
  · rw [slice_flipBit_outside _ j (.inr (by omega)), slice_flipBit_of_le (a := 12) _ _ j (by omega),
      checksum_header_encodeMessage, slice_encodeMessage_headerCrc]
    exact (le32dec_flipBit_le32_ne _ (by omega) hj).symm

/-- A flipped payload bit leaves the preamble as it was, so the header verifies and the payload does not (R106). -/
theorem decodeSteps_flipBit_payload (t : Word) {p : List Byte} {k j : Nat} (hp : p.length ≤ 4294967295)
    (hk : 16 ≤ k) (hkp : k < 16 + p.length) (hj : j < 8) :
    ∃ sum, decodeSteps (flipBit (encodeMessage t p) k j) = .badPayload sum := by
  have hfront : ∀ a b, b ≤ 16 → slice (flipBit (encodeMessage t p) k j) a b = slice (encodeMessage t p) a b :=
    fun _ _ hb => slice_flipBit_outside _ j (.inr (hb.trans hk))
  have hfields : preambleFields (flipBit (encodeMessage t p) k j) = preambleOf t p := by
    rw [← preambleFields_encodeMessage]
    simp [preambleFields, hfront]
  have hlength : (preambleFields (flipBit (encodeMessage t p) k j)).length.toNat = p.length := by
    rw [hfields, preambleOf, lengthField_toNat hp]
  have hpay : payloadSlice (flipBit (encodeMessage t p) k j) = flipBit p (k - 16) j := by
    rw [payloadSlice, hlength, slice_flipBit_of_le _ _ j hk, slice_encodeMessage_payload]
  refine ⟨_, decodeSteps_badPayload (by simp [flipBit_length]) ?_ (by simp [hlength, flipBit_length]) ?_⟩
  · rw [hfront 0 12 (by omega), hfields, checksum_header_encodeMessage]
  · rw [hpay, hfields]
    exact checksum_flipBit_ne (by omega) hj

/-! ### Bytes after the declared payload -/

/-- The cut behind the declared payload leaves the preamble and the payload whole, and both lengths pass the
same tests (R107). -/
theorem decodeSteps_slice {s : List Byte} {n : Nat} (hn : (preambleFields s).length.toNat = n)
    (hlong : n + 16 < s.length) : decodeSteps (slice s 0 (16 + n)) = decodeSteps s := by
  have hfields : preambleFields (slice s 0 (16 + n)) = preambleFields s := by
    simp (disch := omega) only [preambleFields, slice_slice_zero]
  have hpay : payloadSlice (slice s 0 (16 + n)) = payloadSlice s := by
    rw [payloadSlice, hfields, hn, slice_slice_zero s le_rfl, payloadSlice, hn]
  have hshort : (slice s 0 (16 + n)).length < 16 ↔ s.length < 16 := by
    rw [slice_length]
    omega
  have hfit : (slice s 0 (16 + n)).length - 16 < n ↔ s.length - 16 < n := by
    rw [slice_length]
    omega
  have hheader : slice (slice s 0 (16 + n)) 0 12 = slice s 0 12 := slice_slice_zero s (by omega)
  simp only [decodeSteps, hfields, hpay, hn, hshort, hfit, hheader]

/-! ### Naming a message -/

/-- The decoder's first word is the word the message begins with; its name is told (R70, R104). -/
theorem runFetched_message (t : Word) (more : List Byte) (s : State) :
    runFetched (.message (le32 t ++ more)) s = .next (tellName (msgtype t) s) := by
  have hword : le32dec [t.extractLsb' 0 8, t.extractLsb' 8 8, t.extractLsb' 16 8, t.extractLsb' 24 8] = t :=
    le32dec_le32 t
  simp only [runFetched, decode, decodeMessageName, le32, List.cons_append, hword]
  cases msgtype t <;> rfl

theorem decodeMessageName_short {bytes : List Byte} (h : bytes.length < 4) :
    decodeMessageName bytes = .error .shortMessage := by
  unfold decodeMessageName
  split
  · simp only [List.length_cons] at h
    omega
  · rfl

theorem msgtype_unknown {t : Word} (h : 4 ≤ t.toNat) : msgtype t = .unknown := by
  unfold msgtype
  split
  case h_5 => rfl
  all_goals omega

/-! ### The statements -/

/-- Settles O30: every check of decode passes, and the length field holds the length. -/
theorem codecRoundTrip : Obligations.CodecRoundTrip := by
  intro t p hp
  rw [decodeMessage, decodeSteps_encodeMessage hp, preambleOf, lengthField_of_le hp]
  rfl

/-- Settles O7: with a first word the name is told, and without one nothing is decoded. -/
theorem messageNaming : Obligations.MessageNaming := by
  refine ⟨fun s t more rest hs => ?_, fun s bytes rest hs hlen => ?_, rfl, rfl, rfl, rfl,
    fun _ => msgtype_unknown⟩
  · exact (step_act hs).trans (runFetched_message t more _)
  · simp only [step_act hs, hostAct, runFetched, decode, decodeMessageName_short hlen, undecoded]

/-- Settles O25: past 2^32 - 1 bytes the message is too long for every `OUT` as well. -/
theorem msgEncodeResult : Obligations.MsgEncodeResult := by
  intro s t b
  obtain ⟨_, _, _, _, hdec, _⟩ := selectorTable t b
  have hbound := Config.bufMax_bounds
  refine ⟨hdec, fun hlen hfit => ?_, fun hlong => ?_⟩
  · rw [slice_encodeMessage_headerCrc, le32dec_le32, ← lengthField_of_le hlen]
    exact if_pos ((encodable_iff _).2 hfit)
  · have hnot : ¬ encodable s.mem.inBuf.length = true := by
      rw [encodable_iff]
      omega
    exact if_neg hnot

/-- Settles O27, ending by ending. -/
theorem msgDecodeResult : Obligations.MsgDecodeResult := by
  intro s a b
  obtain ⟨_, _, _, _, _, hdec, _⟩ := selectorTable a b
  refine ⟨hdec, fun hlen => exec_msgDecode (decodeSteps_tooShort hlen),
    fun hlen hsum => exec_msgDecode (decodeSteps_badHeader hlen hsum),
    fun hlen hsum hlong => exec_msgDecode (decodeSteps_tooLong hlen hsum hlong), ?_⟩
  rintro hlen hsum hfit _ rfl
  exact ⟨fun hpay => exec_msgDecode (decodeSteps_badPayload hlen hsum hfit hpay),
    fun hpay => exec_msgDecode (decodeSteps_accepted hlen hsum hfit hpay)⟩

/-- Settles O28: of the five endings only acceptance leaves `STATUS` 0, and it has checked all of this. -/
theorem decodedMessageVerifies : Obligations.DecodedMessageVerifies := by
  intro s t h hstatus
  rcases execMsgDecode_next_cases h with
    ⟨_, rfl⟩ | ⟨_, _, rfl⟩ | ⟨_, _, _, rfl⟩ | ⟨_, _, _, _, rfl⟩ | ⟨hlen, hsum, hfit, hpay, rfl⟩
  case inr.inr.inr.inr =>
    have hlength : (payloadSlice s.mem.inBuf).length = (preambleFields s.mem.inBuf).length.toNat := by
      rw [payloadSlice, slice_length]
      omega
    exact ⟨preambleFields_verifies hlen hsum, hpay, hlength, hpay⟩
  all_goals simp [faultCode, statusCode] at hstatus

/-- Settles O31: the flip stands in the preamble or in the payload. -/
theorem singleBitCorruptionDetected : Obligations.SingleBitCorruptionDetected := by
  intro t p k j hp hk hj
  have preamble (h : k < 16) := decodeSteps_flipBit_preamble t p h hj
  have payload (h : 16 ≤ k) := decodeSteps_flipBit_payload t hp h hk hj
  refine ⟨?_, preamble, payload⟩
  rw [decodeMessage]
  rcases lt_or_ge k 16 with h | h
  · obtain ⟨sum, hsum⟩ := preamble h
    rw [hsum]
  · obtain ⟨sum, hsum⟩ := payload h
    rw [hsum]

/-- Settles O32: the checks end the same way, so decode answers the same. -/
theorem trailingBytesIgnored : Obligations.TrailingBytesIgnored := by
  intro s hlong
  exact (decodeMessage_congr (decodeSteps_slice rfl hlong)).symm

/-- Settles O33: the writes of the two operations, `MSG.DECODE`'s ending by ending. -/
theorem codecFrame : Obligations.CodecFrame := by
  intro i s t h hi
  obtain ⟨w, hw, rfl⟩ := exec_next_iff_writes.1 h
  rcases hi with ⟨ty, rfl⟩ | rfl
  · rw [writesOf] at hw
    split at hw <;> cases hw
    refine ⟨rfl, rfl, rfl, rfl, fun _ => rfl, ?_, by simp⟩
    rintro _ ⟨⟩ off
    rfl
  · cases hw
    unfold decodeMessage
    cases decodeSteps s.mem.inBuf with
    | tooShort | badHeader | tooLong | badPayload =>
      exact ⟨rfl, rfl, rfl, rfl, fun _ => rfl, by simp, fun _ _ => List.getElem?_nil⟩
    | accepted sum m p => exact ⟨rfl, rfl, rfl, rfl, fun _ => rfl, by simp, fun _ _ => rfl⟩

/-- Settles O26: the fields stand at their offsets, and the length field holds the length. -/
theorem encodedMessageLayout : Obligations.EncodedMessageLayout := by
  intro t p hp
  refine ⟨slice_encodeMessage_typeId t p, ?_, slice_encodeMessage_payloadCrc t p,
    slice_encodeMessage_headerCrc t p, drop_encodeMessage t p, encodeMessage_length t p⟩
  rw [slice_encodeMessage_length, lengthField_of_le hp]

end Sys2Proof.Machine

/-! PROOFS of the payload family. The two endings of `INFO.PARSE`, told apart by the length of `IN`; then the
statements. -/

namespace Sys2Proof.Machine

/-! ### The endings of parse -/

theorem parseInfo_malformed {s : List Byte} (h : s.length ≠ infoLength) : parseInfo s = .error .malformedPayload :=
  if_pos h

theorem parseInfo_accepted {s : List Byte} (h : s.length = infoLength) : parseInfo s = .ok (infoFields s) :=
  if_neg (not_not_intro h)

theorem exec_infoParse_malformed {s : State} (h : s.mem.inBuf.length ≠ infoLength) :
    exec .infoParse s = .next (s.raiseFault .malformedPayload) := by
  simp only [exec, execInfoParse, parseInfo_malformed h]

theorem exec_infoParse_accepted {s : State} (h : s.mem.inBuf.length = infoLength) :
    exec .infoParse s = .next (s.setInfo (infoFields s.mem.inBuf)).complete := by
  simp only [exec, execInfoParse, parseInfo_accepted h]

/-! ### The statements -/

/-- Settles O34. -/
theorem hdrreqPackResult : Obligations.HdrreqPackResult := by
  intro s n c
  obtain ⟨_, _, _, _, _, _, hdec, _⟩ := selectorTable n c
  exact ⟨hdec, rfl⟩

/-- Settles O35, ending by ending. -/
theorem infoParseResult : Obligations.InfoParseResult := by
  intro s a b
  obtain ⟨_, _, _, _, _, _, _, hdec⟩ := selectorTable a b
  exact ⟨hdec, exec_infoParse_accepted, exec_infoParse_malformed⟩

/-- Settles O36: the one ending of `HDRREQ.PACK` and the two of `INFO.PARSE`. -/
theorem payloadFrame : Obligations.PayloadFrame := by
  intro i s t h hi
  rcases hi with ⟨n, c, rfl⟩ | rfl
  · cases h
    refine ⟨rfl, rfl, rfl, rfl, rfl, fun _ => rfl, ?_, by simp⟩
    rintro _ _ ⟨⟩
    exact ⟨rfl, fun _ => rfl⟩
  · by_cases hlen : s.mem.inBuf.length = infoLength
    · cases (exec_infoParse_accepted hlen).symm.trans h
      exact ⟨rfl, rfl, rfl, rfl, rfl, fun _ => rfl, by simp, fun _ _ => rfl⟩
    · cases (exec_infoParse_malformed hlen).symm.trans h
      exact ⟨rfl, rfl, rfl, rfl, rfl, fun _ => rfl, by simp, fun _ _ => rfl⟩

end Sys2Proof.Machine

/-! PROOFS of the client family. The fields of a stamped image, read back by their place; then the statement. -/

namespace Sys2Proof.Machine

/-! ### The stamped image -/

theorem slice_append_middle {a b c : List Byte} {i j : Nat} (hi : a.length = i) (hj : i + b.length = j) :
    slice (a ++ b ++ c) i j = b := by
  subst hi hj
  simp [slice]

/-- The image `stamp` answers: the first four bytes, the checksum and size fields, the payload (R136).
`stamp_eq_ok` ties it to `stamp`. -/
def stampedImage (head payload : List Byte) : List Byte :=
  head ++ le32 (checksum payload) ++ le32 (BitVec.ofNat 32 payload.length) ++ payload

theorem stamp_eq_ok {image : List Byte} (hlen : 12 ≤ image.length) (hsize : image.length - 12 ≤ 4294967295) :
    stamp image = .ok (stampedImage (slice image 0 4) (image.drop 12)) := by
  have hheader : ¬ image.length < imageHeader := Nat.not_lt.2 hlen
  have hpayload : ¬ 4294967295 < (imagePayload image).length := by
    rw [imagePayload, List.length_drop]
    exact Nat.not_lt.2 hsize
  rw [stamp, if_neg hheader, if_neg hpayload]
  rfl

section
variable {head : List Byte} (hhead : head.length = 4) (p : List Byte)
include hhead

theorem stampedImage_length : (stampedImage head p).length = 12 + p.length := by
  simp only [stampedImage, List.length_append, le32_length, hhead]

theorem slice_stampedImage_head : slice (stampedImage head p) 0 4 = head := by
  rw [stampedImage, List.append_assoc, List.append_assoc]
  exact slice_append_middle (a := []) rfl (by omega)

theorem slice_stampedImage_checksum : slice (stampedImage head p) 4 8 = le32 (checksum p) := by
  rw [stampedImage, List.append_assoc]
  exact slice_append_middle hhead rfl

theorem slice_stampedImage_size : slice (stampedImage head p) 8 12 = le32 (BitVec.ofNat 32 p.length) :=
  slice_append_middle (by simp [hhead]) rfl

theorem drop_stampedImage : (stampedImage head p).drop 12 = p :=
  List.drop_left' (by simp [hhead])

/-- Stamping a stamped image reads back the very parts it was made of (R138). -/
theorem stamp_stampedImage (hp : p.length ≤ 4294967295) :
    stamp (stampedImage head p) = .ok (stampedImage head p) := by
  have hlen := stampedImage_length hhead p
  rw [stamp_eq_ok (by omega) (by omega), slice_stampedImage_head hhead, drop_stampedImage hhead]

end

/-! ### The statement -/

/-- Settles O48, field by field of the stamped image. -/
theorem stampIsCorrect : Obligations.StampIsCorrect := by
  intro image hlen hsize
  have hhead : (slice image 0 4).length = 4 := by
    rw [slice_length]
    omega
  have hpayload : (image.drop 12).length = image.length - 12 := List.length_drop
  have hst := stampedImage_length hhead (image.drop 12)
  refine ⟨_, stamp_eq_ok hlen hsize, by omega, drop_stampedImage hhead _, slice_stampedImage_head hhead _, ?_, ?_,
    stamp_stampedImage hhead _ (by omega)⟩
  · rw [drop_stampedImage hhead, slice_stampedImage_checksum hhead, le32dec_le32]
  · rw [slice_stampedImage_size hhead, le32dec_le32, BitVec.toNat_ofNat]
    omega

end Sys2Proof.Machine

/-! PROOFS of the exceptions family. What the two faults of `MSG.DECODE` leave, and when `MSG.ENCODE` is refused;
then the statements. -/

namespace Sys2Proof.Machine

/-! ### Faults and refusals -/

/-- The two faults of `MSG.DECODE` name themselves in `STATUS` and empty `OUT` (R161). -/
theorem raiseFault_of_decodeFault {f : EngineFault} (hf : f = .corruptMessage ∨ f = .truncatedMessage)
    (s : State) :
    ((s.raiseFault f).status = 2#3 ∨ (s.raiseFault f).status = 3#3) ∧ (s.raiseFault f).mem.outBuf = [] := by
  rcases hf with rfl | rfl
  · exact ⟨.inl rfl, rfl⟩
  · exact ⟨.inr rfl, rfl⟩

/-- The model's two limits on `MSG.ENCODE` come to this one: a message past `BUF_MAX` is refused (R109). -/
theorem exec_msgEncode_refused {ty : Word} {s : State} (h : Config.bufMax < 16 + s.mem.inBuf.length) :
    exec (.msgEncode ty) s = .refused .payloadTooLong :=
  if_neg fun fit => absurd ((encodable_iff _).1 fit) (by omega)

theorem exec_msgEncode_next {ty : Word} {s : State} (h : 16 + s.mem.inBuf.length ≤ Config.bufMax) :
    ∃ t, exec (.msgEncode ty) s = .next t :=
  ⟨_, if_pos ((encodable_iff _).2 h)⟩

/-- `INFO.PARSE` completes at either ending (R124, R158). -/
theorem exec_infoParse_next (s : State) : ∃ t, exec .infoParse s = .next t := by
  by_cases hlen : s.mem.inBuf.length = infoLength
  · exact ⟨_, exec_infoParse_accepted hlen⟩
  · exact ⟨_, exec_infoParse_malformed hlen⟩

/-! ### The statements -/

/-- Settles O29: a `MSG.DECODE` that ends with a `STATUS` other than 0 raised one of its two faults. -/
theorem faultingDecodeDiscards : Obligations.FaultingDecodeDiscards := by
  intro s t h hstatus
  cases exec_effect h with
  | decodeFault v f hf =>
    obtain ⟨hcode, hout⟩ := raiseFault_of_decodeFault hf (s.setCrc v)
    exact ⟨hcode, hout, by simp, by simp, by simp⟩
  | decoded => exact absurd rfl hstatus
  | crcUnit _ hi | told _ hi => simp at hi

/-- Settles O43, instruction by instruction: only `MSG.ENCODE` has operands it is refused on. -/
theorem everyInstructionCompletes : Obligations.EveryInstructionCompletes := by
  intro i s
  cases i with
  | msgEncode ty =>
    rcases le_or_gt (16 + s.mem.inBuf.length) Config.bufMax with hfit | hlong
    · exact .inl (exec_msgEncode_next hfit)
    · exact .inr ⟨ty, rfl, hlong, exec_msgEncode_refused hlong⟩
  | msgDecode => exact .inl ⟨_, execMsgDecode_eq_writes s⟩
  | infoParse => exact .inl (exec_infoParse_next s)
  | crcInit | crcWord | crcSum | crcRead | hdrreqPack | infoRequest | resetRequest | headerRequest
    | dataRequest => exact .inl ⟨_, rfl⟩

end Sys2Proof.Machine

/-! PROOFS of the reset and host interface family. What comes of a command with a selector of the table, and of a
message with a first word; from there every allowed action completes, and so does every run of them; then the
statements. -/

namespace Sys2Proof.Machine

/-! ### Well-formed actions are decoded -/

/-- Below 8 every selector has its row in the table (R66). -/
theorem decodeCommand_of_lt {cmd : BitVec 72} (h : (commandSel cmd).toNat < 8) :
    ∃ i, decodeCommand cmd = .ok i := by
  unfold decodeCommand
  interval_cases (commandSel cmd).toNat
  all_goals exact ⟨_, rfl⟩

/-- Only the selector `0x04` is decoded to `MSG.ENCODE` (R66). -/
theorem encodes_of_decodeCommand {cmd : BitVec 72} {ty : Word} (h : decodeCommand cmd = .ok (.msgEncode ty)) :
    (HostAction.issue cmd).encodes = true := by
  unfold decodeCommand at h
  split at h <;> cases h
  next hsel => exact beq_iff_eq.2 (BitVec.eq_of_toNat_eq hsel)

/-- Four bytes or more begin with the encoding of a word (R70). -/
theorem exists_eq_le32_append {bytes : List Byte} (h : 4 ≤ bytes.length) :
    ∃ t more, bytes = le32 t ++ more := by
  have hword : le32 (le32dec (bytes.take 4)) = bytes.take 4 := le32_le32dec (by simpa using h)
  exact ⟨_, bytes.drop 4, by rw [hword, List.take_append_drop]⟩

/-! ### Allowed actions complete -/

/-- Only `MSG.ENCODE` has to be asked whether its message fits `OUT` (R109). -/
theorem exec_next_of_fits {i : Instr} {s : State}
    (h : ∀ ty, i = .msgEncode ty → 16 + s.mem.inBuf.length ≤ Config.bufMax) : ∃ t, exec i s = .next t := by
  rcases everyInstructionCompletes i s with hnext | ⟨ty, hi, hlong, _⟩
  · exact hnext
  · exact absurd (h ty hi) (Nat.not_le.2 hlong)

theorem runFetched_command_next {cmd : BitVec 72} {s : State} (h : (HostAction.issue cmd).Allowed s) :
    ∃ t, runFetched (.command cmd) s = .next t := by
  obtain ⟨hwf, hfit⟩ := h
  obtain ⟨i, hi⟩ := decodeCommand_of_lt (of_decide_eq_true hwf)
  simp only [runFetched, decode, hi]
  refine exec_next_of_fits fun ty hty => hfit (encodes_of_decodeCommand (ty := ty) ?_)
  rw [hi, hty]

theorem runFetched_message_next {bytes : List Byte} (h : 4 ≤ bytes.length) (s : State) :
    ∃ t, runFetched (.message bytes) s = .next t := by
  obtain ⟨t, more, rfl⟩ := exists_eq_le32_append h
  exact ⟨_, runFetched_message t more s⟩

theorem loadInput_of_fits {b : List Byte} (h : Config.fits b.length = true) (s : State) :
    loadInput b s = .next (s.setIn b) :=
  if_pos h

/-- No allowed action is refused; `IN <- OUT` because `OUT` is within `BUF_MAX` already (R186, R167). -/
theorem hostAct_next_of_allowed {act : HostAction} {s : State} (hmem : s.mem.wf = true) (h : act.Allowed s) :
    ∃ t, hostAct act s = .next t := by
  cases act with
  | issue cmd => exact runFetched_command_next h
  | nameMessage bytes => exact runFetched_message_next (of_decide_eq_true h.1) s
  | loadIn b => exact ⟨_, loadInput_of_fits h.1 s⟩
  | copyOut => exact ⟨_, loadInput_of_fits ((Memory.wf_iff _).1 hmem).2 s⟩
  | read p => exact ⟨_, rfl⟩
  | reset => exact ⟨_, rfl⟩

theorem step_next_of_allowed {s : State} (hs : s.Inv)
    (h : ∀ act, s.script.head? = some act → act.Allowed s) : ∃ t, step s = .next t := by
  cases hscript : s.script with
  | nil => exact ⟨s, step_idle hscript⟩
  | cons act rest =>
    have hact : act.Allowed (s.setScript rest) := h act (by rw [hscript, List.head?_cons])
    rw [step_act hscript]
    exact hostAct_next_of_allowed (s := s.setScript rest) hs.memory hact

/-! ### Runs of allowed actions -/

theorem safeFor_of_interfaceKept {n : Nat} {s : State} (hs : s.Inv) (h : InterfaceKept n s) : SafeFor n s := by
  induction n generalizing s with
  | zero => exact ⟨s, rfl⟩
  | succ n ih =>
    obtain ⟨hnow, hlater⟩ := h
    obtain ⟨t, hstep⟩ := step_next_of_allowed hs hnow
    obtain ⟨u, hrun⟩ := ih (stepKeepsTheInvariant s t hs hstep) (hlater t hstep)
    exact ⟨u, (run_succ_of_step hstep).trans hrun⟩

/-- A step takes the first action off the host's list and touches no other (R18). -/
theorem step_next_script {s t : State} (h : step s = .next t) : t.script = s.script.tail := by
  rcases step_next_cases h with ⟨hscript, rfl⟩ | ⟨act, rest, hscript, hact⟩
  · rw [hscript, List.tail_nil]
  · rw [hscript, List.tail_cons]
    rcases hact with ⟨f, i, _, _, hexec⟩ | ⟨r, rfl⟩ | ⟨b, _, rfl⟩ | ⟨_, rfl⟩
    · exact exec_next_script hexec
    all_goals rfl

/-- Well-formed actions without `MSG.ENCODE` are allowed in every state, so in whichever they are made. -/
theorem interfaceKept_of_wellFormed {n : Nat} {s : State}
    (h : ∀ act ∈ s.script, act.wellFormed = true ∧ act.encodes = false) : InterfaceKept n s := by
  induction n generalizing s with
  | zero => trivial
  | succ n ih =>
    refine ⟨fun act hact => ?_, fun t hstep => ih fun act hact => ?_⟩
    · obtain ⟨hwf, hnot⟩ := h act (List.mem_of_mem_head? hact)
      exact ⟨hwf, fun henc => by simp [hnot] at henc⟩
    · rw [step_next_script hstep] at hact
      exact h act (List.mem_of_mem_tail hact)

/-! ### The statements -/

/-- Settles O47: an allowed action completes, every step keeps the invariant, and runs are inductions on that. -/
theorem wellFormedHostIsSafe : Obligations.WellFormedHostIsSafe := by
  refine ⟨fun s hs hallowed => ?_, fun n s => safeFor_of_interfaceKept, fun n s => interfaceKept_of_wellFormed⟩
  obtain ⟨t, hstep⟩ := step_next_of_allowed hs hallowed
  exact ⟨t, hstep, stepKeepsTheInvariant s t hs hstep⟩

/-- Settles O9: what fits is loaded, and under the invariant `OUT` fits. -/
theorem hostLoads : Obligations.HostLoads := by
  intro s bytes rest
  refine ⟨fun hs hfit => step_loadIn hs ((Config.fits_iff _).2 hfit), fun hs hlong => ?_,
    fun hs hinv => step_copyOut hs ((Memory.wf_iff _).1 hinv.memory).2⟩
  rw [step_act hs]
  exact if_neg (mt (Config.fits_iff _).1 (Nat.not_le.2 hlong))

end Sys2Proof.Machine
